-- ==== Sys2Proof/Word.lean ====
section
/-! DEFINITION. The word types of the block: registers, bytes, real patterns, register numbers, transactions. -/

namespace Sys2Proof

/-- A register's content: 64 bits (00_scope R5, "register width"). -/
abbrev Word := BitVec 64

/-- One byte of sample memory (20_memory R30). -/
abbrev Byte := BitVec 8

/-- A binary64 number by its bit pattern: bit 63 sign, 62:52 biased exponent, 51:0 fraction
(00_scope R6, 30_encoding R51). -/
abbrev F64 := BitVec 64

/-- A binary32 number by its bit pattern: bit 31 sign, 30:23 biased exponent, 22:0 fraction (00_scope R6). -/
abbrev F32 := BitVec 32

/-- A 12-bit register number (30_encoding R45). -/
abbrev RegNum := BitVec 12

/-- A host transaction of 77 bits: W[76], REG[75:64], DATA[63:0] (30_encoding R45). -/
abbrev Transaction := BitVec 77

end Sys2Proof
end

