-- ==== Sys2Proof/Syntax.lean ====
section
/-! DEFINITION. The nine instructions of 30_encoding R45 and R48. -/

namespace Sys2Proof

/-- The seven commands of 30_encoding R48, named by a word written to `CMD`. -/
inductive Command where
  | new | reinit | process | psample | clear | latency | design
  deriving DecidableEq, Repr

/-- Why a word written to `CMD` names no command (30_encoding R47). -/
inductive CommandError where
  | reservedBits
  | unknownOpcode
  deriving DecidableEq, Repr

/-- The instructions: the two host transactions and the seven commands, one constructor per row of
spec/opcode_table.json.  A command's constructor is the WR to `CMD` that starts it. -/
inductive Instr where
  /-- WR (43 R110): write `data` to register `reg`. -/
  | wr (reg : RegNum) (data : Word)
  /-- RD (43 R111): read register `reg`; the DATA field is ignored and is no operand. -/
  | rd (reg : RegNum)
  /-- NEW (43 R112). -/
  | new
  /-- REINIT (43 R113). -/
  | reinit
  /-- PROCESS (43 R114). -/
  | process
  /-- PSAMPLE (42 R101). -/
  | psample
  /-- CLEAR (42 R102). -/
  | clear
  /-- LATENCY (42 R103). -/
  | latency
  /-- DESIGN (41 R88). -/
  | design
  deriving DecidableEq, Repr

/-- The instruction a command word's WR is. -/
def Command.toInstr : Command → Instr
  | .new => .new
  | .reinit => .reinit
  | .process => .process
  | .psample => .psample
  | .clear => .clear
  | .latency => .latency
  | .design => .design

end Sys2Proof
end

