-- ==== Sys2Proof/WellFormed.lean ====
section
/-! DEFINITION. Which terms of `Instr` are some transaction's decoding. -/

namespace Sys2Proof

/-- The register number of `CMD` (10_state R23). -/
def cmdNumber : RegNum := 0x008

/-- A WR is written `wr` unless it is the WR of a command: the words 1 to 7 to `CMD` have constructors of
their own (30_encoding R48).  Its meaning is the command's all the same (43 R110). -/
def Instr.wellFormed : Instr → Bool
  | .wr reg data => !(reg == cmdNumber && decide (1 ≤ data.toNat ∧ data.toNat ≤ 7))
  | .rd _ => true
  | .new => true
  | .reinit => true
  | .process => true
  | .psample => true
  | .clear => true
  | .latency => true
  | .design => true

end Sys2Proof
end

