-- ==== Sys2Proof/Decode.lean ====
section
/-! DEFINITION. Decoding of command words and transactions, and the encoder. -/

namespace Sys2Proof

/-- Decoding of a word written to `CMD`, total (30_encoding R47).  The reserved bits are tested first. -/
def decodeCommand (w : Word) : Except CommandError Command :=
  if w.toNat / 256 ≠ 0 then .error .reservedBits
  else match w.toNat with
    | 1 => .ok .new
    | 2 => .ok .reinit
    | 3 => .ok .process
    | 4 => .ok .psample
    | 5 => .ok .clear
    | 6 => .ok .latency
    | 7 => .ok .design
    | _ => .error .unknownOpcode

/-- The command word of a command (30_encoding R48). -/
def encodeCommand : Command → Word
  | .new => 0x0000000000000001
  | .reinit => 0x0000000000000002
  | .process => 0x0000000000000003
  | .psample => 0x0000000000000004
  | .clear => 0x0000000000000005
  | .latency => 0x0000000000000006
  | .design => 0x0000000000000007

/-- Bit 76 of a transaction: 1 for WR, 0 for RD (30_encoding R45). -/
def Transaction.isWrite (t : Transaction) : Bool := t.getLsbD 76

/-- Bits 75:64 of a transaction, the register number (30_encoding R45). -/
def Transaction.reg (t : Transaction) : RegNum := t.extractLsb' 64 12

/-- Bits 63:0 of a transaction, the data (30_encoding R45). -/
def Transaction.data (t : Transaction) : Word := t.extractLsb' 0 64

/-- The transaction of three fields (30_encoding R45). -/
def Transaction.make (write : Bool) (reg : RegNum) (data : Word) : Transaction :=
  BitVec.ofBool write ++ reg ++ data

/-- Decoding of a transaction, total: every 77-bit word is one (30_encoding R45, R55).  A WR of a command
word to `CMD` is that command; a WR of any other word to `CMD` is a `wr`, which fails by name when it runs. -/
def decode (t : Transaction) : Instr :=
  if t.isWrite then
    if t.reg = cmdNumber then
      match decodeCommand t.data with
      | .ok c => c.toInstr
      | .error _ => .wr t.reg t.data
    else .wr t.reg t.data
  else .rd t.reg

/-- The transaction of a command: a WR of its word to `CMD` (30_encoding R48, R56). -/
def commandTransaction (w : Word) : Transaction := Transaction.make true cmdNumber w

/-- The transaction of an instruction, an RD in its canonical form (30_encoding R45, R56). -/
def encode : Instr → Transaction
  | .wr reg data => Transaction.make true reg data
  | .rd reg => Transaction.make false reg 0
  | .new => commandTransaction (encodeCommand .new)
  | .reinit => commandTransaction (encodeCommand .reinit)
  | .process => commandTransaction (encodeCommand .process)
  | .psample => commandTransaction (encodeCommand .psample)
  | .clear => commandTransaction (encodeCommand .clear)
  | .latency => commandTransaction (encodeCommand .latency)
  | .design => commandTransaction (encodeCommand .design)

/-- The transaction that brings a row of spec/opcode_table.json to the block: a row of 64 bits or fewer is a
command word, delivered by a WR to `CMD`; a longer one is the transaction itself.  DESIGN CHOICE (log 4): safe. -/
def tableTransaction (nbits w : Nat) : Transaction :=
  if nbits ≤ 64 then commandTransaction (BitVec.ofNat 64 w) else BitVec.ofNat 77 w

/-- The instruction of a row of spec/opcode_table.json: a command word that names no command has none. -/
def decodeTableWord (nbits w : Nat) : Option Instr :=
  if nbits ≤ 64 then
    match decodeCommand (BitVec.ofNat 64 w) with
    | .ok _ => some (decode (tableTransaction nbits w))
    | .error _ => none
  else some (decode (tableTransaction nbits w))

end Sys2Proof
end

