-- ==== Sys2Proof/Machine/Float.lean ====
section
/-! DEFINITION. Binary64 and binary32 arithmetic on bit patterns (40_numerics R60 to R65, R67, R69): unpack to
exact natural numbers, compute exactly, round once. -/

namespace Sys2Proof.Machine

/-! ## Rounding -/

/-- The integer nearest to `num / den`, a tie to the even one (40_numerics R60). -/
def nearestEven (num den : Nat) : Nat :=
  let q := num / den
  let twice := 2 * (num % den)
  if twice < den then q
  else if den < twice then q + 1
  else if q % 2 = 0 then q else q + 1

/-- How many low bits of the quantum count a number of integer part `n` loses in a format of `frac` fraction
bits: none while it fits in `frac + 1` bits. -/
def droppedBits (frac n : Nat) : Nat := Nat.log2 n - frac

/-- The magnitude pattern (all bits but the sign) of `num / den` quanta, rounded to nearest even with gradual
underflow, in the format of `frac` fraction bits whose all-ones exponent is `expMax`; a magnitude that rounds
too high gives the pattern of infinity (40_numerics R60, R61).  A quantum is the smallest subnormal, so the
pattern of a result that loses `k` bits is `k * 2^frac` plus the rounded significand, carry included. -/
def roundMagnitude (frac expMax num den : Nat) : Nat :=
  let k := droppedBits frac (num / den)
  min (k * 2 ^ frac + nearestEven num (den * 2 ^ k)) (expMax * 2 ^ frac)

/-- `roundMagnitude` for binary64, in quanta of `2^-1074`. -/
def round64 (num den : Nat) : Nat := roundMagnitude 52 2047 num den

/-- `roundMagnitude` for binary32, in quanta of `2^-149`. -/
def round32 (num den : Nat) : Nat := roundMagnitude 23 255 num den

/-! ## Fields of a pattern -/

/-- The magnitude pattern of an infinity, `0x7FF0000000000000`. -/
def infBits : Nat := 9218868437227405312

/-- The canonical quiet NaN, `NaN64` (00_scope R6, 40_numerics R67). -/
def nan64 : F64 := 0x7FF8000000000000

/-- The canonical quiet NaN of binary32, `NaN32` (40_numerics R67). -/
def nan32 : F32 := 0x7FC00000

/-- Bit 63: the sign. -/
def signOf (a : F64) : Bool := decide (2 ^ 63 ≤ a.toNat)

/-- Bits 62:0. -/
def absBits (a : F64) : Nat := a.toNat % 2 ^ 63

/-- `isNaN` (40_numerics R65): all-ones exponent and a fraction that is not 0. -/
def isNaN (a : F64) : Bool := decide (infBits < absBits a)

/-- Whether the value is an infinity. -/
def isInf (a : F64) : Bool := decide (absBits a = infBits)

/-- `isFinite` (00_scope R6, 40_numerics R65): the exponent field is not all ones. -/
def isFinite (a : F64) : Bool := decide (absBits a < infBits)

/-- Whether the value is `+0` or `-0`. -/
def isZero (a : F64) : Bool := decide (absBits a = 0)

/-- The number of quanta that a magnitude pattern of `frac` fraction bits stands for. -/
def quantaOfBits (frac p : Nat) : Nat :=
  let e := p / 2 ^ frac
  let f := p % 2 ^ frac
  if e = 0 then f else (2 ^ frac + f) * 2 ^ (e - 1)

/-- How far `num / den` quanta is from the value of a magnitude pattern of `frac` fraction bits, times `den`. -/
def distanceTo (frac num den p : Nat) : Nat := ((num : Int) - (den : Int) * (quantaOfBits frac p : Int)).natAbs

/-- The magnitude of a finite value in quanta of `2^-1074`: every finite binary64 is a whole number of them. -/
def quanta (a : F64) : Nat := quantaOfBits 52 (absBits a)

/-- The quanta of 1.0. -/
def oneQuanta : Nat := 2 ^ 1074

/-- The pattern of a sign and a magnitude pattern. -/
def pack (neg : Bool) (p : Nat) : F64 := BitVec.ofNat 64 ((if neg then 2 ^ 63 else 0) + p)

/-- The infinity of a sign. -/
def infOf (neg : Bool) : F64 := pack neg infBits

/-- The zero of a sign. -/
def zeroOf (neg : Bool) : F64 := pack neg 0

/-- `f64(p)` (00_scope R6): the binary64 value of a register's pattern.  A value that is a NaN is the one canonical
NaN, so a NaN pattern read as an operand is `NaN64` (40_numerics R67, 96 row V5; DEDUCED, log 13: safe). -/
def valueOf (p : F64) : F64 := if isNaN p then nan64 else p

/-! ## Operations -/

/-- `fneg` (40_numerics R65): flips the sign; a NaN gives `NaN64`. -/
def fneg (a : F64) : F64 := if isNaN a then nan64 else pack (!signOf a) (absBits a)

/-- The rounded sum of two finite values (40_numerics R61): an exact zero sum is `+0` unless both are negative. -/
def addFinite (a b : F64) : F64 :=
  if signOf a = signOf b then pack (signOf a) (round64 (quanta a + quanta b) 1)
  else if quanta a = quanta b then zeroOf false
  else if quanta b < quanta a then pack (signOf a) (round64 (quanta a - quanta b) 1)
  else pack (signOf b) (round64 (quanta b - quanta a) 1)

/-- `fadd` (40_numerics R61). -/
def fadd (a b : F64) : F64 :=
  if isNaN a || isNaN b then nan64
  else if isInf a then
    if isInf b && signOf a != signOf b then nan64 else infOf (signOf a)
  else if isInf b then infOf (signOf b)
  else addFinite a b

/-- `fsub(a, b) = fadd(a, fneg(b))` (40_numerics R61). -/
def fsub (a b : F64) : F64 := fadd a (fneg b)

/-- `fmul` (40_numerics R62): the sign is the exclusive-or of the signs, `0 * inf` is `NaN64`. -/
def fmul (a b : F64) : F64 :=
  let neg := signOf a != signOf b
  if isNaN a || isNaN b then nan64
  else if isInf a || isInf b then
    if isZero a || isZero b then nan64 else infOf neg
  else pack neg (round64 (quanta a * quanta b) oneQuanta)

/-- `fdiv` (40_numerics R63): `0/0` and `inf/inf` are `NaN64`, a non-zero over a zero is an infinity. -/
def fdiv (a b : F64) : F64 :=
  let neg := signOf a != signOf b
  if isNaN a || isNaN b then nan64
  else if isInf a then
    if isInf b then nan64 else infOf neg
  else if isInf b then zeroOf neg
  else if isZero b then
    if isZero a then nan64 else infOf neg
  else pack neg (round64 (quanta a * oneQuanta) (quanta b))

/-- The integer square root of `n`, found bit by bit from bit `bits - 1` down on top of `root`. -/
def isqrtFrom (n : Nat) : (bits : Nat) → (root : Nat) → Nat
  | 0, root => root
  | bits + 1, root =>
    if (root + 2 ^ bits) * (root + 2 ^ bits) ≤ n then isqrtFrom n bits (root + 2 ^ bits)
    else isqrtFrom n bits root

/-- The rounded square root of a positive finite magnitude of pattern `p`, as a magnitude pattern.  The value is
`m * 2^t` quanta-squared with `t` at least 1074; `m * 2^r` with `r` 110 or 111 has a root of at least 56 bits, and
a root that is not exact is represented by one half more, which no rounding boundary lies between. -/
def sqrtMagnitude (p : Nat) : Nat :=
  let e := p / 2 ^ 52
  let f := p % 2 ^ 52
  let m := if e = 0 then f else 2 ^ 52 + f
  let t := (if e = 0 then 0 else e - 1) + 1074
  let r := 110 + t % 2
  let n := m * 2 ^ r
  let root := isqrtFrom n 84 0
  let twice := 2 * root + (if root * root = n then 0 else 1)
  round64 (twice * 2 ^ ((t - r) / 2)) 2

/-- `fsqrt` (40_numerics R64). -/
def fsqrt (a : F64) : F64 :=
  if isNaN a then nan64
  else if isZero a then a
  else if signOf a then nan64
  else if isInf a then a
  else pack false (sqrtMagnitude (absBits a))

/-! ## Comparisons (40_numerics R65): false when an operand is a NaN -/

/-- An integer in the order of the values of the patterns that are no NaN; both zeros are 0. -/
def orderKey (a : F64) : Int := if signOf a then -(absBits a : Int) else (absBits a : Int)

/-- `flt`. -/
def flt (a b : F64) : Bool := !isNaN a && !isNaN b && decide (orderKey a < orderKey b)

/-- `fle`. -/
def fle (a b : F64) : Bool := !isNaN a && !isNaN b && decide (orderKey a ≤ orderKey b)

/-- `fgt`. -/
def fgt (a b : F64) : Bool := flt b a

/-- `fge`. -/
def fge (a b : F64) : Bool := fle b a

/-- `feq`. -/
def feq (a b : F64) : Bool := !isNaN a && !isNaN b && decide (orderKey a = orderKey b)

/-! ## Conversions (40_numerics R65) -/

/-- `ofNat`: the binary64 value of a natural number. -/
def f64OfNat (n : Nat) : F64 := pack false (round64 (n * oneQuanta) 1)

/-- `ofInt`: the binary64 value of an integer. -/
def f64OfInt (i : Int) : F64 := pack (decide (i < 0)) (round64 (i.natAbs * oneQuanta) 1)

/-- Bits 30:0 of a binary32 pattern. -/
def absBits32 (p : F32) : Nat := p.toNat % 2 ^ 31

/-- The magnitude pattern of a binary32 infinity, `0x7F800000`. -/
def infBits32 : Nat := 2139095040

/-- `f64_of_f32`: widening, exact; every NaN gives `NaN64`.  A quantum of binary32 is `2^925` quanta of binary64. -/
def f64OfF32 (p : F32) : F64 :=
  let neg := decide (2 ^ 31 ≤ p.toNat)
  if infBits32 < absBits32 p then nan64
  else if absBits32 p = infBits32 then infOf neg
  else pack neg (round64 (quantaOfBits 23 (absBits32 p) * 2 ^ 925) 1)

/-- The binary32 pattern of a sign and a magnitude pattern. -/
def pack32 (neg : Bool) (p : Nat) : F32 := BitVec.ofNat 32 ((if neg then 2 ^ 31 else 0) + p)

/-- `f32_of_f64`: narrowing, to nearest even, with gradual underflow; a NaN gives `NaN32`. -/
def f32OfF64 (v : F64) : F32 :=
  if isNaN v then nan32
  else if isInf v then pack32 (signOf v) infBits32
  else pack32 (signOf v) (round32 (quanta v) (2 ^ 925))

/-- `rne`: the integer nearest to a finite value, a tie to the even one. -/
def rne (v : F64) : Int :=
  let n := (nearestEven (quanta v) oneQuanta : Int)
  if signOf v then -n else n

/-! ## Constants (40_numerics R68) -/

/-- 1.0 -/
def oneF : F64 := 0x3FF0000000000000
/-- 2.0 -/
def twoF : F64 := 0x4000000000000000
/-- -2.0 -/
def minusTwoF : F64 := 0xC000000000000000
/-- 40.0 -/
def fortyF : F64 := 0x4044000000000000
/-- `PI64`. -/
def pi64 : F64 := 0x400921FB54442D18
/-- `TWO_PI64`. -/
def twoPi64 : F64 := 0x401921FB54442D18

end Sys2Proof.Machine
end

