-- ==== Sys2Proof/Config.lean ====
section
/-! DEFINITION. What an implementation fixes and no transaction changes: the open parameters of 00_scope R5,
as plain data, and the transcendental functions of an implementation that is not the default one. -/

namespace Sys2Proof

/-- A run of sample-memory byte addresses, `base .. base + size - 1`.  `READABLE` and `WRITABLE`
(00_scope R5, 20_memory R30) are unions of such runs; every set of addresses below `2^ADDR_WIDTH` is one. -/
structure Region where
  base : Nat
  size : Nat
  deriving DecidableEq, Repr

/-- Which `TRANSC` record the block has (40_numerics R66): the default, correctly rounded one, or another
implementation's, known by a number only.  DESIGN CHOICE (log 1, 2): safe. -/
inductive Transc where
  | correctlyRounded
  | other (id : Nat)
  deriving DecidableEq, Repr

/-- The open parameters of 00_scope R5 other than `MAX_CHANNELS`, which is the number of history slots.
They are arguments of the model (10_state R27): no step writes them. -/
structure Params where
  addrWidth : Nat
  readable : List Region
  writable : List Region
  transc : Transc
  deriving DecidableEq, Repr

/-- The default parameters of 00_scope R5: 32 address bits, every address readable and writable, the
correctly rounded `TRANSC`. -/
def Params.default : Params where
  addrWidth := 32
  readable := [⟨0, 4294967296⟩]
  writable := [⟨0, 4294967296⟩]
  transc := .correctlyRounded

/-- The default `MAX_CHANNELS` of 00_scope R5. -/
def Config.defaultMaxChannels : Nat := 32

/-- The largest legal sample rate, `2^32 - 1` (00_scope R5, `SAMPLE_RATE_MAX`). -/
def Config.sampleRateMax : Nat := 4294967295

/-- The value LATENCY reports (00_scope R5, `LATENCY_FRAMES`). -/
def Config.latencyFrames : Word := 1

/-- Which of the values that 40_numerics R66 allows `sin64` of implementation `id` gives for an operand: no body,
nothing constrains it (log 2). -/
opaque Config.sinChoice (id : Nat) : F64 → Nat

/-- Which of the values that 40_numerics R66 allows `cos64` of implementation `id` gives (log 2). -/
opaque Config.cosChoice (id : Nat) : F64 → Nat

/-- Which of the values that 40_numerics R66 allows `pow10_64` of implementation `id` gives (log 2). -/
opaque Config.pow10Choice (id : Nat) : F64 → Nat

/-- The bounds of 00_scope R5 on the two numeric parameters that are open. -/
abbrev Params.Legal (maxChannels : Nat) (p : Params) : Prop :=
  1 ≤ maxChannels ∧ maxChannels ≤ 960 ∧ 1 ≤ p.addrWidth ∧ p.addrWidth ≤ 64

end Sys2Proof
end

