-- ==== Sys2Proof/Machine/State.lean ====
section
/-! DEFINITION. The state of the block, the reasons a step can stop, and the state after reset. -/

namespace Sys2Proof.Machine

/-- Five binary64 coefficients, normalised so that a0 = 1 (10_state R12, R15). -/
structure Coefs where
  b0 : F64
  b1 : F64
  b2 : F64
  a1 : F64
  a2 : F64
  deriving DecidableEq, Repr

/-- The history of one channel (10_state R13): the last two inputs and the last two outputs. -/
structure Slot where
  x1 : F64
  x2 : F64
  y1 : F64
  y2 : F64
  deriving DecidableEq, Repr

/-- What the world outside the block does next (00_scope R2, 10_state R21, R25, 70 R150): issue a
transaction, store a byte of sample memory, or reset the block. -/
inductive HostAction where
  | transaction (t : Transaction)
  | store (addr : Nat) (byte : Byte)
  | reset
  deriving DecidableEq, Repr

/-- A Configuration: the six staging registers `CFG_FORMAT` to `CFG_FREQUENCY` (10_state R11). -/
structure Configuration where
  format : Word
  channels : Word
  sampleRate : Word
  gainDb : F64
  shelfSlope : F64
  frequency : F64
  deriving DecidableEq, Repr

/-- A frame buffer's description: the registers `IN_ADDR` to `IN_FRAMES` or `OUT_ADDR` to `OUT_FRAMES`
(10_state R22). -/
structure Descriptor where
  addr : Word
  format : Word
  channels : Word
  frames : Word
  deriving DecidableEq, Repr

/-- The machine.  `cfg` to `hist` are the register file of 10_state R10 and R23; `mem` is the sample memory of
20_memory R30; the last three are the model's own (log 1, 4, 6). -/
structure State where
  cfg : Configuration
  cmd : Word
  result : Word
  status : Word
  retval : Word
  psChannel : Word
  psX : F64
  psY : F64
  input : Descriptor
  output : Descriptor
  actFormat : Word
  actChannels : Word
  coef : Coefs
  dsn : Coefs
  /-- One slot per channel; its length is `MAX_CHANNELS` (10_state R14, log 1). -/
  hist : List Slot
  /-- Sample memory: addresses strictly rising, no byte 0 listed (log 7). -/
  mem : List Host.Cell
  /-- The open parameters of 00_scope R5 (log 1). -/
  params : Params
  /-- The host's actions still to come, the next one first (log 4). -/
  script : List HostAction
  /-- The values RD has returned to the host, the latest first (43 R111, log 6). -/
  returned : List Word
  deriving DecidableEq, Repr

/-- Why the machine stops with a fault. -/
inductive Fault where
  /-- Raised by `step` on a host store to a byte address that is not below `2^ADDR_WIDTH`: the spec says no
  such byte exists (20_memory R30).  Safe (log 8).  No instruction raises it. -/
  | noSuchByte (addr : Nat)
  deriving DecidableEq, Repr

/-- Why an instruction has no meaning in the model. -/
inductive Refusal where
  /-- Raised by an arm of `exec` whose instruction has no meaning yet.  Safe.  No arm raises it. -/
  | notModelled (mnemonic : String)
  deriving DecidableEq, Repr

/-- Five coefficients of +0.0. -/
def Coefs.zero : Coefs := ⟨0, 0, 0, 0, 0⟩

/-- A history of +0.0 (42 R102). -/
def Slot.zero : Slot := ⟨0, 0, 0, 0⟩

/-- A Configuration of zeros, which is not a legal one (70 R152). -/
def Configuration.zero : Configuration := ⟨0, 0, 0, 0, 0, 0⟩

/-- A descriptor of zeros. -/
def Descriptor.zero : Descriptor := ⟨0, 0, 0, 0⟩

/-- The block right after the reset event (70 R150, 10_state R29): every register 0; the sample memory, the
parameters, the number of slots and the two host-side fields are the ones given. -/
def State.afterReset (maxChannels : Nat) (mem : List Host.Cell) (params : Params)
    (script : List HostAction) (returned : List Word) : State where
  cfg := Configuration.zero
  cmd := 0
  result := 0
  status := 0
  retval := 0
  psChannel := 0
  psX := 0
  psY := 0
  input := Descriptor.zero
  output := Descriptor.zero
  actFormat := 0
  actChannels := 0
  coef := Coefs.zero
  dsn := Coefs.zero
  hist := List.replicate maxChannels Slot.zero
  mem := mem
  params := params
  script := script
  returned := returned

/-- The machine after reset, with the default parameters of 00_scope R5, no byte of sample memory listed and
no host action to come. -/
def State.reset : State :=
  State.afterReset Config.defaultMaxChannels [] Params.default [] []

end Sys2Proof.Machine
end

