-- ==== Sys2Proof/Machine/Flags.lean ====
section
/-! DEFINITION. The fields of `RESULT` and `STATUS`, and the causes of failure (10_state R18, R19, 60 R130, R131). -/

namespace Sys2Proof.Machine

/-- The causes of failure (60 R131). -/
inductive Cause where
  | notReady | badFormat | badChannels | badSampleRate | badFrequency | badSlope | badGain | nonfiniteCoef
  | formatMismatch | framesMismatch | channelsMismatch | badRange | badOverlap | badChannelIndex
  | reservedBits | unknownOpcode
  deriving DecidableEq, Repr

/-- The number of a cause (60 R131). -/
def Cause.number : Cause → Nat
  | .notReady => 1
  | .badFormat => 2
  | .badChannels => 3
  | .badSampleRate => 4
  | .badFrequency => 5
  | .badSlope => 6
  | .badGain => 7
  | .nonfiniteCoef => 8
  | .formatMismatch => 9
  | .framesMismatch => 10
  | .channelsMismatch => 11
  | .badRange => 12
  | .badOverlap => 13
  | .badChannelIndex => 14
  | .reservedBits => 15
  | .unknownOpcode => 16

/-- The code that goes with a cause (60 R131): 2 IllegalCommand for the two decode failures, else 1 InvalidArgs. -/
def Cause.code : Cause → Nat
  | .reservedBits => 2
  | .unknownOpcode => 2
  | _ => 1

/-- The cause of a word that names no command (30_encoding R47). -/
def causeOfCommandError : CommandError → Cause
  | .reservedBits => .reservedBits
  | .unknownOpcode => .unknownOpcode

/-- `RESULT` from its fields: CODE in bits 7:0, CAUSE in bits 15:8, the rest 0 (10_state R18). -/
def resultWord (code cause : Nat) : Word := BitVec.ofNat 64 (cause * 256 + code)

/-- `RESULT.CODE`, bits 7:0 (10_state R18). -/
def resultCode (w : Word) : Nat := w.toNat % 256

/-- `RESULT.CAUSE`, bits 15:8 (10_state R18). -/
def resultCause (w : Word) : Nat := w.toNat / 256 % 256

/-- `RESULT` of a success: code 0, cause 0 (60 R130). -/
def successResult : Word := resultWord 0 0

/-- `RESULT` of a failure (60 R134). -/
def failureResult (c : Cause) : Word := resultWord c.code c.number

/-- `STATUS.READY`, bit 0 (10_state R19). -/
def State.ready (s : State) : Bool := s.status.getLsbD 0

/-- `STATUS` with `READY` set, the other bits kept (10_state R19). -/
def statusReady (w : Word) : Word := w ||| 1

end Sys2Proof.Machine
end

