-- ==== Sys2Proof/Machine/Ops.lean ====
section
/-! DEFINITION. The named operations over registers, history and sample memory, and the end of a command: success,
or failure, the block's one exception (60_exceptions R134). -/

namespace Sys2Proof.Machine

/-! ## Updates of one part of the state -/

/-- Stores the staging registers. -/
def State.setCfg (s : State) (c : Configuration) : State := { s with cfg := c }
/-- Stores `CMD` (10_state R17). -/
def State.setCmd (s : State) (w : Word) : State := { s with cmd := w }
/-- Stores `RESULT` (10_state R18). -/
def State.setResult (s : State) (w : Word) : State := { s with result := w }
/-- Stores `STATUS` (10_state R19). -/
def State.setStatus (s : State) (w : Word) : State := { s with status := w }
/-- Stores `RETVAL` (10_state R20). -/
def State.setRetval (s : State) (w : Word) : State := { s with retval := w }
/-- Stores `PS_CHANNEL` (10_state R20). -/
def State.setPsChannel (s : State) (w : Word) : State := { s with psChannel := w }
/-- Stores `PS_X` (10_state R20). -/
def State.setPsX (s : State) (v : F64) : State := { s with psX := v }
/-- Stores `PS_Y` (10_state R20). -/
def State.setPsY (s : State) (v : F64) : State := { s with psY := v }
/-- Stores the four `IN_*` registers (10_state R22). -/
def State.setInput (s : State) (d : Descriptor) : State := { s with input := d }
/-- Stores the four `OUT_*` registers (10_state R22). -/
def State.setOutput (s : State) (d : Descriptor) : State := { s with output := d }
/-- Stores `ACT_FORMAT` and `ACT_CHANNELS` (10_state R16). -/
def State.setShape (s : State) (format channels : Word) : State :=
  { s with actFormat := format, actChannels := channels }
/-- Stores the five `COEF_*` together (10_state R12). -/
def State.setCoef (s : State) (k : Coefs) : State := { s with coef := k }
/-- Stores the five `DSN_*` together (10_state R15). -/
def State.setDsn (s : State) (k : Coefs) : State := { s with dsn := k }
/-- Stores the history register file (10_state R14). -/
def State.setHist (s : State) (h : List Slot) : State := { s with hist := h }
/-- Stores the sample memory (20_memory R30). -/
def State.setMem (s : State) (m : List Host.Cell) : State := { s with mem := m }
/-- Replaces the host's actions to come (log 4). -/
def State.setScript (s : State) (l : List HostAction) : State := { s with script := l }
/-- Hands a value to the host (43 R111, log 6). -/
def State.giveHost (s : State) (w : Word) : State := { s with returned := w :: s.returned }

/-! ## History -/

/-- `MAX_CHANNELS`: the number of history slots (00_scope R5, log 1). -/
def State.maxChannels (s : State) : Nat := s.hist.length

/-- `H[c]` (00_scope R7).  A slot outside the file, which no run selects, reads as zeros (log 12). -/
def State.slot (s : State) (c : Nat) : Slot := s.hist.getD c Slot.zero

/-- `H[c] <- h` (00_scope R7).  A slot outside the file, which no run selects, is not written (log 12). -/
def State.setSlot (s : State) (c : Nat) (h : Slot) : State := s.setHist (s.hist.set c h)

/-- The history with every slot from number `n` up zeroed (42 R102 with `n = 0`, 43 R113). -/
def zeroSlotsFrom (n : Nat) (hist : List Slot) : List Slot :=
  hist.take n ++ List.replicate (hist.length - n) Slot.zero

/-! ## Sample memory -/

/-- What a byte of sample memory reads as while nothing is listed for it.  DESIGN CHOICE (log 7): unsafe. -/
def Memory.blank : Byte := 0

/-- One byte of sample memory (20_memory R30). -/
def Memory.read : List Host.Cell → Nat → Byte
  | [], _ => Memory.blank
  | (x, b) :: m, a => if a = x then b else if a < x then Memory.blank else Memory.read m a

/-- Stores one byte of sample memory, in the canonical form: addresses rising, no blank byte listed. -/
def Memory.write : List Host.Cell → Nat → Byte → List Host.Cell
  | [], a, v => if v = Memory.blank then [] else [(a, v)]
  | (x, b) :: m, a, v =>
    if a = x then (if v = Memory.blank then m else (a, v) :: m)
    else if a < x then (if v = Memory.blank then (x, b) :: m else (a, v) :: (x, b) :: m)
    else (x, b) :: Memory.write m a v

/-- Whether every listed address is at least `least`, they rise, and no blank byte is listed. -/
def Memory.wfFrom : Nat → List Host.Cell → Bool
  | _, [] => true
  | least, (x, b) :: m => decide (least ≤ x) && decide (b ≠ Memory.blank) && Memory.wfFrom (x + 1) m

/-- The canonical form of the memory list. -/
def Memory.wf (m : List Host.Cell) : Bool := Memory.wfFrom 0 m

/-- `MemRead(a, n)`: `n` bytes from address `a`, the lowest address least significant (20_memory R32). -/
def Memory.load (m : List Host.Cell) : (a n : Nat) → Nat
  | _, 0 => 0
  | a, n + 1 => (Memory.read m a).toNat + 256 * Memory.load m (a + 1) n

/-- `MemWrite(a, n, v)`: the low `8n` bits of `v` to `n` bytes from address `a`, least significant first
(20_memory R32). -/
def Memory.store : List Host.Cell → (a n v : Nat) → List Host.Cell
  | m, _, 0, _ => m
  | m, a, n + 1, v => Memory.store (Memory.write m a (BitVec.ofNat 8 v)) (a + 1) n (v / 256)

/-! ## Admission of buffers (20_memory R36, R37) -/

/-- The addresses from `lo` up to but not `hi`, as a list of at most one run. -/
def runOf (lo hi : Nat) : List (Nat × Nat) := if lo < hi then [(lo, hi)] else []

/-- What a region leaves of a run of addresses. -/
def regionLeaves (r : Region) (run : Nat × Nat) : List (Nat × Nat) :=
  runOf run.1 (min run.2 r.base) ++ runOf (max run.1 (r.base + r.size)) run.2

/-- What the regions leave of some runs of addresses. -/
def uncovered : List Region → List (Nat × Nat) → List (Nat × Nat)
  | [], runs => runs
  | r :: rs, runs => uncovered rs (runs.flatMap (regionLeaves r))

/-- Whether every address from `lo` up to but not `hi` is in the union of the regions. -/
def covers (regions : List Region) (lo hi : Nat) : Bool := (uncovered regions (runOf lo hi)).isEmpty

/-- Whether a buffer of `nbytes` bytes at `base` is admitted (20_memory R36): in range, in unbounded integers, and
wholly in the set. -/
def admitted (addrWidth : Nat) (regions : List Region) (base nbytes : Nat) : Bool :=
  decide (base + nbytes ≤ 2 ^ addrWidth) && covers regions base (base + nbytes)

/-- Whether two buffers of `nbytes` bytes are the same or disjoint (20_memory R37). -/
def sameOrDisjoint (inBase outBase nbytes : Nat) : Bool :=
  decide (inBase = outBase) || decide (inBase + nbytes ≤ outBase) || decide (outBase + nbytes ≤ inBase)

/-! ## The end of a command -/

/-- A command fails (60 R134): `RESULT` records code and cause, and nothing else changes.  This is the block's one
exception; it transfers no control, so nothing returns from it (60 R137). -/
def State.fail (s : State) (c : Cause) : State := s.setResult (failureResult c)

/-- A command succeeds (00_scope R7, `succeed`). -/
def State.succeed (s : State) : State := s.setResult successResult

/-- The state a command leaves: its checks, all made before any effect, either raise a cause in `s` or give the
state with the effects made (60 R135). -/
def State.conclude (s : State) : Except Cause State → State
  | .error c => s.fail c
  | .ok t => t.succeed

/-- A WR of the word `w` to `CMD` that starts the command `body`: the word is stored, then the command runs
(10_state R17, 43 R110). -/
def State.issue (s : State) (w : Word) (body : State → Except Cause State) : State :=
  (s.setCmd w).conclude (body (s.setCmd w))

/-- `for i in first .. first + n - 1`, ascending: the body is given the index and the state. -/
def loopFrom (body : Nat → State → State) : (n first : Nat) → State → State
  | 0, _, s => s
  | n + 1, first, s => loopFrom body n (first + 1) (body first s)

end Sys2Proof.Machine
end

