-- ==== Sys2Proof/Machine/BiquadCore.lean ====
section
/-! DEFINITION. The biquad core: the step function, PSAMPLE, CLEAR and LATENCY (42_biquad_core R95 to R103). -/

namespace Sys2Proof.Machine

/-- `y = (((b0*x + b1*x1) + b2*x2) - a1*y1) - a2*y2`, each operation rounded (42 R96). -/
def biquadOutput (k : Coefs) (h : Slot) (x : F64) : F64 :=
  fsub (fsub (fadd (fadd (fmul k.b0 x) (fmul k.b1 h.x1)) (fmul k.b2 h.x2)) (fmul k.a1 h.y1)) (fmul k.a2 h.y2)

/-- The shift of the history: `x2 ← x1`, `x1 ← x`, `y2 ← y1`, `y1 ← y` (42 R96). -/
def Slot.shift (h : Slot) (x y : F64) : Slot := ⟨x, h.x1, y, h.y1⟩

/-- `biquad_step` (42 R96): the output and the next history. -/
def biquadStep (k : Coefs) (h : Slot) (x : F64) : F64 × Slot :=
  (biquadOutput k h x, h.shift x (biquadOutput k h x))

/-- What PSAMPLE does once `CMD` is written (42 R101). -/
def psampleCommand (s : State) : Except Cause State :=
  if s.ready = false then .error .notReady
  else if ¬(s.psChannel.toNat < s.actChannels.toNat) then .error .badChannelIndex
  else
    let c := s.psChannel.toNat
    let step := biquadStep s.coef (s.slot c) (valueOf s.psX)
    .ok ((s.setSlot c step.2).setPsY step.1)

/-- PSAMPLE (42 R101). -/
def execPsample (s : State) : Host.Outcome State Fault Refusal :=
  .next (s.issue (encodeCommand .psample) psampleCommand)

/-- `clear_history` (42 R102): every slot zeroed. -/
def State.clearHistory (s : State) : State := s.setHist (zeroSlotsFrom 0 s.hist)

/-- What CLEAR does once `CMD` is written (42 R102). -/
def clearCommand (s : State) : Except Cause State :=
  if s.ready = false then .error .notReady else .ok s.clearHistory

/-- CLEAR (42 R102). -/
def execClear (s : State) : Host.Outcome State Fault Refusal :=
  .next (s.issue (encodeCommand .clear) clearCommand)

/-- What LATENCY does once `CMD` is written (42 R103). -/
def latencyCommand (s : State) : Except Cause State := .ok (s.setRetval Config.latencyFrames)

/-- LATENCY (42 R103). -/
def execLatency (s : State) : Host.Outcome State Fault Refusal :=
  .next (s.issue (encodeCommand .latency) latencyCommand)

end Sys2Proof.Machine
end

