-- ==== Sys2Proof/Machine/Operands.lean ====
section
/-! DEFINITION. The register map: register numbers, host reads and host writes (10_state R23, R24), and the format
tags (30_encoding R49). -/

namespace Sys2Proof.Machine

/-- A field of a history slot (10_state R13). -/
inductive SlotField where
  | x1 | x2 | y1 | y2
  deriving DecidableEq, Repr

/-- The registers of 10_state R23. -/
inductive Reg where
  | cfgFormat | cfgChannels | cfgSampleRate | cfgGainDb | cfgShelfSlope | cfgFrequency
  | cmd | result | status | retval | psChannel | psX | psY
  | inAddr | inFormat | inChannels | inFrames | outAddr | outFormat | outChannels | outFrames
  | actFormat | actChannels
  | coefB0 | coefB1 | coefB2 | coefA1 | coefA2
  | dsnB0 | dsnB1 | dsnB2 | dsnA1 | dsnA2
  | hist (c : Nat) (f : SlotField)
  deriving DecidableEq, Repr

/-- The field numbered `k` of a slot (10_state R14). -/
def slotField (k : Nat) : SlotField :=
  match k with
  | 0 => .x1
  | 1 => .x2
  | 2 => .y1
  | _ => .y2

/-- The history register of a number, field `k` of slot `c` at `0x100 + 4*c + k` (10_state R14). -/
def histReg (maxChannels n : Nat) : Option Reg :=
  if 0x100 ≤ n ∧ (n - 0x100) / 4 < maxChannels then
    some (.hist ((n - 0x100) / 4) (slotField ((n - 0x100) % 4)))
  else none

/-- The register of a number, `none` where the number is unmapped (10_state R23). -/
def regOfNumber (maxChannels n : Nat) : Option Reg :=
  match n with
  | 0x000 => some .cfgFormat
  | 0x001 => some .cfgChannels
  | 0x002 => some .cfgSampleRate
  | 0x003 => some .cfgGainDb
  | 0x004 => some .cfgShelfSlope
  | 0x005 => some .cfgFrequency
  | 0x008 => some .cmd
  | 0x009 => some .result
  | 0x00A => some .status
  | 0x00B => some .retval
  | 0x00C => some .psChannel
  | 0x00D => some .psX
  | 0x00E => some .psY
  | 0x010 => some .inAddr
  | 0x011 => some .inFormat
  | 0x012 => some .inChannels
  | 0x013 => some .inFrames
  | 0x014 => some .outAddr
  | 0x015 => some .outFormat
  | 0x016 => some .outChannels
  | 0x017 => some .outFrames
  | 0x020 => some .actFormat
  | 0x021 => some .actChannels
  | 0x028 => some .coefB0
  | 0x029 => some .coefB1
  | 0x02A => some .coefB2
  | 0x02B => some .coefA1
  | 0x02C => some .coefA2
  | 0x030 => some .dsnB0
  | 0x031 => some .dsnB1
  | 0x032 => some .dsnB2
  | 0x033 => some .dsnA1
  | 0x034 => some .dsnA2
  | n => histReg maxChannels n

/-- A field of a slot. -/
def Slot.field (h : Slot) : SlotField → F64
  | .x1 => h.x1
  | .x2 => h.x2
  | .y1 => h.y1
  | .y2 => h.y2

/-- The 64 bits a register holds. -/
def State.reg (s : State) : Reg → Word
  | .cfgFormat => s.cfg.format
  | .cfgChannels => s.cfg.channels
  | .cfgSampleRate => s.cfg.sampleRate
  | .cfgGainDb => s.cfg.gainDb
  | .cfgShelfSlope => s.cfg.shelfSlope
  | .cfgFrequency => s.cfg.frequency
  | .cmd => s.cmd
  | .result => s.result
  | .status => s.status
  | .retval => s.retval
  | .psChannel => s.psChannel
  | .psX => s.psX
  | .psY => s.psY
  | .inAddr => s.input.addr
  | .inFormat => s.input.format
  | .inChannels => s.input.channels
  | .inFrames => s.input.frames
  | .outAddr => s.output.addr
  | .outFormat => s.output.format
  | .outChannels => s.output.channels
  | .outFrames => s.output.frames
  | .actFormat => s.actFormat
  | .actChannels => s.actChannels
  | .coefB0 => s.coef.b0
  | .coefB1 => s.coef.b1
  | .coefB2 => s.coef.b2
  | .coefA1 => s.coef.a1
  | .coefA2 => s.coef.a2
  | .dsnB0 => s.dsn.b0
  | .dsnB1 => s.dsn.b1
  | .dsnB2 => s.dsn.b2
  | .dsnA1 => s.dsn.a1
  | .dsnA2 => s.dsn.a2
  | .hist c f => (s.slot c).field f

/-- What a host read of a register number returns: 0 where it is unmapped (10_state R24, 43 R111). -/
def State.readNumber (s : State) (n : RegNum) : Word :=
  match regOfNumber s.maxChannels n.toNat with
  | some r => s.reg r
  | none => 0

/-- Whether the host may write a register (10_state R23, access RW). -/
def Reg.hostWritable : Reg → Bool
  | .cfgFormat | .cfgChannels | .cfgSampleRate | .cfgGainDb | .cfgShelfSlope | .cfgFrequency => true
  | .cmd => true
  | .psChannel | .psX => true
  | .inAddr | .inFormat | .inChannels | .inFrames => true
  | .outAddr | .outFormat | .outChannels | .outFrames => true
  | .result | .status | .retval | .psY => false
  | .actFormat | .actChannels => false
  | .coefB0 | .coefB1 | .coefB2 | .coefA1 | .coefA2 => false
  | .dsnB0 | .dsnB1 | .dsnB2 | .dsnA1 | .dsnA2 => false
  | .hist _ _ => false

/-- The state after a host write of the 64 bits `v` to a register: stored whole where the register is read-write,
ignored where it is read-only (10_state R24).  The word written to `CMD` is stored here and executed by WR. -/
def State.writeReg (s : State) (r : Reg) (v : Word) : State :=
  match r with
  | .cfgFormat => s.setCfg { s.cfg with format := v }
  | .cfgChannels => s.setCfg { s.cfg with channels := v }
  | .cfgSampleRate => s.setCfg { s.cfg with sampleRate := v }
  | .cfgGainDb => s.setCfg { s.cfg with gainDb := v }
  | .cfgShelfSlope => s.setCfg { s.cfg with shelfSlope := v }
  | .cfgFrequency => s.setCfg { s.cfg with frequency := v }
  | .cmd => s.setCmd v
  | .psChannel => s.setPsChannel v
  | .psX => s.setPsX v
  | .inAddr => s.setInput { s.input with addr := v }
  | .inFormat => s.setInput { s.input with format := v }
  | .inChannels => s.setInput { s.input with channels := v }
  | .inFrames => s.setInput { s.input with frames := v }
  | .outAddr => s.setOutput { s.output with addr := v }
  | .outFormat => s.setOutput { s.output with format := v }
  | .outChannels => s.setOutput { s.output with channels := v }
  | .outFrames => s.setOutput { s.output with frames := v }
  | .result | .status | .retval | .psY => s
  | .actFormat | .actChannels => s
  | .coefB0 | .coefB1 | .coefB2 | .coefA1 | .coefA2 => s
  | .dsnB0 | .dsnB1 | .dsnB2 | .dsnA1 | .dsnA2 => s
  | .hist _ _ => s

/-! ## Sample formats -/

/-- The sample formats (30_encoding R49). -/
inductive Format where
  | unsigned8 | signed16 | signed24 | signed32 | float32
  deriving DecidableEq, Repr

/-- The format of a tag, `none` for a tag that is none of 1 to 5; the whole register is compared (30_encoding R49). -/
def formatOfTag (tag : Word) : Option Format :=
  match tag.toNat with
  | 1 => some .unsigned8
  | 2 => some .signed16
  | 3 => some .signed24
  | 4 => some .signed32
  | 5 => some .float32
  | _ => none

/-- `bps`: the bytes of one sample (20_memory R31). -/
def Format.bytes : Format → Nat
  | .unsigned8 => 1
  | .signed16 => 2
  | .signed24 => 3
  | .signed32 => 4
  | .float32 => 4

end Sys2Proof.Machine
end

