-- ==== Sys2Proof/Machine/Transcendental.lean ====
section
/-! DEFINITION. `TRANSC` (40_numerics R66): the three transcendental functions.  The default instance is computed
here by enclosing the exact real value between two fixed-point numbers and raising the precision until both round to
one binary64 (log 3).  Another instance gives, for each operand, one of the values that the named properties T-NAN,
T-RANGE, T-ONE and T-ACC leave it, the opaque functions of Config choosing which (log 2).

Fixed-point numbers are naturals in units of `2^-w`. -/

namespace Sys2Proof.Machine

/-! ## Series -/

/-- `t/i - t/(q²(i+2)) + ...`: with `t = 2^w/q` and `i = 1` the arctangent of `1/q`. -/
def arctanFrom (qq : Nat) : (fuel t i : Nat) → Nat
  | 0, _, _ => 0
  | fuel + 1, t, i => if t = 0 then 0 else t / i - arctanFrom qq fuel (t / qq) (i + 2)

/-- `t/i + t/(q²(i+2)) + ...`: with `t = 2^w/q` and `i = 1` the area tangent of `1/q`. -/
def artanhFrom (qq : Nat) : (fuel t i : Nat) → Nat
  | 0, _, _ => 0
  | fuel + 1, t, i => if t = 0 then 0 else t / i + artanhFrom qq fuel (t / qq) (i + 2)

/-- `π/2 = 8 arctan(1/5) - 2 arctan(1/239)`. -/
def halfPi (w : Nat) : Nat :=
  8 * arctanFrom 25 w (2 ^ w / 5) 1 - 2 * arctanFrom 57121 w (2 ^ w / 239) 1

/-- `ln 2 = 2 artanh(1/3)`. -/
def ln2 (w : Nat) : Nat := 2 * artanhFrom 9 w (2 ^ w / 3) 1

/-- `ln 10 = 3 ln 2 + 2 artanh(1/9)`. -/
def ln10 (w : Nat) : Nat := 3 * ln2 w + 2 * artanhFrom 81 w (2 ^ w / 9) 1

/-- The alternating series whose next term is the last one times `rr / ((i+1)(i+2))`: the sine of `r` from `t = r`,
`i = 1`; the cosine from `t = 1`, `i = 0`. -/
def trigFrom (w rr : Nat) : (fuel t i : Nat) → Nat
  | 0, _, _ => 0
  | fuel + 1, t, i =>
    if t = 0 then 0 else t - trigFrom w rr fuel (t * rr / 2 ^ w / ((i + 1) * (i + 2))) (i + 2)

/-- The exponential series of `r`, from the term `t` of index `i`. -/
def expFrom (w r : Nat) : (fuel t i : Nat) → Nat
  | 0, _, _ => 0
  | fuel + 1, t, i => if t = 0 then 0 else t + expFrom w r fuel (t * r / 2 ^ w / (i + 1)) (i + 1)

/-! ## Raising the precision -/

/-- The lower candidate once both ends of the enclosure round alike, the precision doubling at each failure. -/
def settle (ends : Nat → F64 × F64) : (fuel p : Nat) → F64
  | 0, p => (ends p).1
  | fuel + 1, p => if (ends p).1 = (ends p).2 then (ends p).1 else settle ends fuel (2 * p)

/-! ## Sine and cosine -/

/-- The sign and the magnitude, in units of `2^-w`, of the sine of `m` quanta plus `quarter` right angles. -/
def quarterSine (quarter m w : Nat) : Bool × Nat :=
  let x := m * 2 ^ w / oneQuanta
  let h := halfPi w
  let r := x % h
  let quadrant := (x / h + quarter) % 4
  let rr := r * r / 2 ^ w
  (decide (2 ≤ quadrant),
    if quadrant % 2 = 0 then trigFrom w rr w r 1 else trigFrom w rr w (2 ^ w) 0)

/-- A magnitude of at most 1, as the functions' range is (40_numerics R66, T-RANGE). -/
def roundUnit (num den : Nat) : Nat := min (round64 num den) oneF.toNat

/-- The two ends of the enclosure of `quarterSine` to within `2^-p`, each rounded by `round`. -/
def sineEnds (round : Nat → Nat → Nat) (neg : Bool) (quarter m p : Nat) : F64 × F64 :=
  let w := p + 32 + Nat.log2 (m / oneQuanta + 1)
  let err := 2 ^ (w - p)
  let v := quarterSine quarter m w
  let sign := v.1 != neg
  (pack sign (round ((v.2 - err) * oneQuanta) (2 ^ w)),
    pack sign (round ((v.2 + err) * oneQuanta) (2 ^ w)))

/-- The precision to begin with: the sine of a small argument is as small as the argument. -/
def firstPrecision (m : Nat) : Nat := 128 + (1074 - Nat.log2 m)

/-- `sin64`, correctly rounded (40_numerics R66). -/
def sinRounded (x : F64) : F64 :=
  if !isFinite x then nan64
  else if isZero x then x
  else settle (sineEnds roundUnit (signOf x) 0 (quanta x)) 5 (firstPrecision (quanta x))

/-- `cos64`, correctly rounded (40_numerics R66). -/
def cosRounded (x : F64) : F64 :=
  if !isFinite x then nan64
  else settle (sineEnds roundUnit false 1 (quanta x)) 5 128

/-! ## The power of ten -/

/-- `10^n` or `10^-n` for a natural `n`, rounded from the exact value. -/
def pow10Whole (neg : Bool) (n : Nat) : F64 :=
  if neg then pack false (round64 oneQuanta (10 ^ n)) else pack false (round64 (10 ^ n * oneQuanta) 1)

/-- The two ends of the enclosure of `10^x` or `10^-x`, `x` of `m` quanta, to within `2^-p` of its size, each rounded by `round`:
`10^x = 2^k * e^r` with `0 ≤ r < ln 2`, and `10^-x = 2^-(k+1) * e^(ln 2 - r)`. -/
def pow10Ends (round : Nat → Nat → Nat) (neg : Bool) (m p : Nat) : F64 × F64 :=
  let w := p + 32
  let err := 2 ^ 32
  let y := m * 2 ^ w / oneQuanta * ln10 w / 2 ^ w
  let k := y / ln2 w
  let r := y % ln2 w
  let s := if neg then ln2 w - r else r
  let v := expFrom w s w (2 ^ w) 0
  let num := if neg then oneQuanta else oneQuanta * 2 ^ k
  let den := if neg then 2 ^ (w + k + 1) else 2 ^ w
  (pack false (round ((v - err) * num) den), pack false (round ((v + err) * num) den))

/-- `pow10_64`, correctly rounded (40_numerics R66).  From 400 up the result overflows, from -400 down it is below
half the smallest subnormal. -/
def pow10Rounded (x : F64) : F64 :=
  if isNaN x then nan64
  else if isInf x || decide (400 * oneQuanta ≤ quanta x) then
    if signOf x then zeroOf false else infOf false
  else if quanta x % oneQuanta = 0 then pow10Whole (signOf x) (quanta x / oneQuanta)
  else settle (pow10Ends round64 (signOf x) (quanta x)) 5 128

/-! ## The values another instance may give (T-ACC and T-RANGE)

A magnitude that is `10^x` for a whole `x`, or the cosine of zero, is a ratio of naturals.  Every other one is
irrational, so it lies strictly between two neighbouring binary64 values, and which values are less than one unit in
the last place away depends on the neighbours alone: the middle of the two stands for it. -/

/-- The magnitude pattern of the largest binary64 value that is not above `num / den` quanta. -/
def floor64 (num den : Nat) : Nat :=
  let k := droppedBits 52 (num / den)
  min (k * 2 ^ 52 + num / (den * 2 ^ k)) infBits

/-- `floor64` of a magnitude of at most 1. -/
def floorUnit (num den : Nat) : Nat := min (floor64 num den) oneF.toNat

/-- One unit in the last place of a magnitude pattern, in quanta. -/
def unitOf (p : Nat) : Nat := 2 ^ (p / 2 ^ 52 - 1)

/-- T-ACC (40_numerics R66): the pattern differs from `num / den` quanta by less than one unit in its last place; a
magnitude that overflows has the pattern of infinity and no other. -/
def accurate (num den p : Nat) : Bool :=
  if round64 num den = infBits then decide (p = infBits)
  else decide (p < infBits) && decide (distanceTo 52 num den p < unitOf p * den)

/-- The accurate patterns of `num / den` quanta: the value below, the one above, and the one after that where it
starts a binade, whose unit is twice that of the two before it. -/
def nearby (num den : Nat) : List Nat :=
  [floor64 num den, floor64 num den + 1, floor64 num den + 2].filter (accurate num den)

/-- The accurate patterns of a magnitude strictly between the patterns `d` and `d + 1`. -/
def nearbyAbove (d : Nat) : List Nat := nearby (quantaOfBits 52 d + quantaOfBits 52 (d + 1)) 2

/-- The values of some magnitude patterns in the range of sine and cosine (T-RANGE), with a sign; a zero has both. -/
def unitValues (neg : Bool) (ps : List Nat) : List F64 :=
  (ps.filter (fun p => decide (p ≤ oneF.toNat))).map (pack neg) ++ (if 0 ∈ ps then [zeroOf (!neg)] else [])

/-- The values allowed for the sine of a finite operand. -/
def sinAllowed (x : F64) : List F64 :=
  if isZero x then unitValues false (nearby 0 1)
  else
    let below := settle (sineEnds floorUnit (signOf x) 0 (quanta x)) 5 (firstPrecision (quanta x))
    unitValues (signOf below) (nearbyAbove (absBits below))

/-- The values allowed for the cosine of a finite operand. -/
def cosAllowed (x : F64) : List F64 :=
  if isZero x then unitValues false (nearby oneQuanta 1)
  else
    let below := settle (sineEnds floorUnit false 1 (quanta x)) 5 128
    unitValues (signOf below) (nearbyAbove (absBits below))

/-- The magnitude patterns allowed for the power of ten of a finite operand, whose sign bit is clear (T-RANGE). -/
def pow10Allowed (x : F64) : List Nat :=
  if 400 * oneQuanta ≤ quanta x then if signOf x then nearbyAbove 0 else [infBits]
  else if quanta x % oneQuanta = 0 then
    if signOf x then nearby oneQuanta (10 ^ (quanta x / oneQuanta)) else nearby (10 ^ (quanta x / oneQuanta) * oneQuanta) 1
  else nearbyAbove (absBits (settle (pow10Ends floor64 (signOf x) (quanta x)) 5 128))

/-- The value numbered `choice` of a list, counted round; `last` where the list is empty, which no list of allowed
values is. -/
def choose (choice : Nat) (values : List F64) (last : F64) : F64 := values.getD (choice % values.length) last

/-- `sin64` of another instance (40_numerics R66). -/
def sinOther (id : Nat) (x : F64) : F64 :=
  if !isFinite x then nan64 else choose (Config.sinChoice id x) (sinAllowed x) (sinRounded x)

/-- `cos64` of another instance (40_numerics R66). -/
def cosOther (id : Nat) (x : F64) : F64 :=
  if !isFinite x then nan64 else choose (Config.cosChoice id x) (cosAllowed x) (cosRounded x)

/-- `pow10_64` of another instance (40_numerics R66): T-NAN and T-ONE fix its value at a NaN, at the infinities and at
the zeros. -/
def pow10Other (id : Nat) (x : F64) : F64 :=
  if !isFinite x || isZero x then pow10Rounded x
  else choose (Config.pow10Choice id x) ((pow10Allowed x).map (pack false)) (pow10Rounded x)

/-! ## The record -/

/-- `sin64` of a `TRANSC` (40_numerics R66). -/
def sin64 (t : Transc) (x : F64) : F64 :=
  match t with
  | .correctlyRounded => sinRounded x
  | .other id => sinOther id x

/-- `cos64` of a `TRANSC` (40_numerics R66). -/
def cos64 (t : Transc) (x : F64) : F64 :=
  match t with
  | .correctlyRounded => cosRounded x
  | .other id => cosOther id x

/-- `pow10_64` of a `TRANSC` (40_numerics R66). -/
def pow10 (t : Transc) (x : F64) : F64 :=
  match t with
  | .correctlyRounded => pow10Rounded x
  | .other id => pow10Other id x

end Sys2Proof.Machine
end

