-- ==== Sys2Proof/Machine/Designer.lean ====
section
/-! DEFINITION. The shelf coefficient designer and the DESIGN command (41_designer R80 to R88). -/

namespace Sys2Proof.Machine

/-- `check_design` (41 R81): the first input constraint that is violated.  Every test is positive, so a NaN fails it. -/
def checkDesign (sr : Nat) (g slope f : F64) : Option Cause :=
  if ¬(1 ≤ sr ∧ sr ≤ Config.sampleRateMax) then some .badSampleRate
  else if ¬(flt 0 f = true ∧ flt f (fdiv (f64OfNat sr) twoF) = true) then some .badFrequency
  else if ¬(isFinite slope = true ∧ flt 0 slope = true) then some .badSlope
  else if ¬(isFinite g = true) then some .badGain
  else none

/-- `w`, the angular frequency `(2π·f)/sr` (41 R84). -/
def angularFrequency (sr : Nat) (f : F64) : F64 := fdiv (fmul twoPi64 f) (f64OfNat sr)

/-- `A`, the linear amplitude `10^(g/40)` (41 R84). -/
def amplitude (t : Transc) (g : F64) : F64 := pow10 t (fdiv g fortyF)

/-- `q`, the square root of `(A + 1/A)·(1/S - 1) + 2` (41 R84). -/
def slopeRoot (A slope : F64) : F64 :=
  fsqrt (fadd (fmul (fadd A (fdiv oneF A)) (fsub (fdiv oneF slope) oneF)) twoF)

/-- `beta`, from `alpha = (s/2)·q`, as `(2·sqrt A)·alpha` (41 R84). -/
def shelfBeta (s A slope : F64) : F64 :=
  fmul (fmul twoF (fsqrt A)) (fmul (fdiv s twoF) (slopeRoot A slope))

/-- The five raw numerators and `a0r` of 41 R84 from `A`, `c` and `beta`, `a0r` last. -/
def rawShelf (A c beta : F64) : Coefs × F64 :=
  let ap1 := fadd A oneF
  let am1 := fsub A oneF
  let u := fadd ap1 (fmul am1 c)
  let v := fsub ap1 (fmul am1 c)
  ({ b0 := fmul A (fadd u beta)
     b1 := fmul (fmul minusTwoF A) (fadd am1 (fmul ap1 c))
     b2 := fmul A (fsub u beta)
     a1 := fmul twoF (fsub am1 (fmul ap1 c))
     a2 := fsub v beta }, fadd v beta)

/-- The division of the five by `a0r` (41 R84). -/
def normalise (k : Coefs × F64) : Coefs where
  b0 := fdiv k.1.b0 k.2
  b1 := fdiv k.1.b1 k.2
  b2 := fdiv k.1.b2 k.2
  a1 := fdiv k.1.a1 k.2
  a2 := fdiv k.1.a2 k.2

/-- `design` (41 R84), total: the fixed sequence of binary64 operations, none fused or reordered (40_numerics R69). -/
def design (t : Transc) (sr : Nat) (g slope f : F64) : Coefs :=
  let w := angularFrequency sr f
  let A := amplitude t g
  normalise (rawShelf A (cos64 t w) (shelfBeta (sin64 t w) A slope))

/-- Whether all five coefficients are finite (41 R86). -/
def Coefs.finite (k : Coefs) : Bool :=
  isFinite k.b0 && isFinite k.b1 && isFinite k.b2 && isFinite k.a1 && isFinite k.a2

/-- `check_finite` after `design` (41 R86). -/
def checkFinite (k : Coefs) : Except Cause Coefs :=
  if k.finite then .ok k else .error .nonfiniteCoef

/-- `design_checked` (41 R87). -/
def designChecked (t : Transc) (sr : Nat) (g slope f : F64) : Except Cause Coefs :=
  match checkDesign sr g slope f with
  | some c => .error c
  | none => checkFinite (design t sr g slope f)

/-- `design_checked` on the staging registers (41 R88). -/
def State.designStaged (s : State) : Except Cause Coefs :=
  designChecked s.params.transc s.cfg.sampleRate.toNat s.cfg.gainDb s.cfg.shelfSlope s.cfg.frequency

/-- What DESIGN does once `CMD` is written (41 R88). -/
def designCommand (s : State) : Except Cause State :=
  match s.designStaged with
  | .error c => .error c
  | .ok k => .ok (s.setDsn k)

/-- DESIGN (41 R88). -/
def execDesign (s : State) : Host.Outcome State Fault Refusal :=
  .next (s.issue (encodeCommand .design) designCommand)

end Sys2Proof.Machine
end

