-- ==== Sys2Proof/Machine/SampleFormat.lean ====
section
/-! DEFINITION. The sample format model: `decode` and `encode` (40_numerics R71 to R76). -/

namespace Sys2Proof.Machine

/-- `sext_N`: the `n`-bit pattern `raw` as a two's-complement integer (00_scope R6). -/
def signExtend (n raw : Nat) : Int := if raw < 2 ^ (n - 1) then (raw : Int) else (raw : Int) - (2 : Int) ^ n

/-- `128.0`, `32768.0`, `8388608.0`, `2147483648.0`: the scale `2^(N-1)` of an N-bit format (40_numerics R68, R72). -/
def scaleOf (n : Nat) : F64 := f64OfNat (2 ^ (n - 1))

/-- `decode` (40_numerics R72) of a raw sample, the natural number of its bytes. -/
def decodeSample (raw : Nat) : Format → F64
  | .unsigned8 => fdiv (f64OfInt ((raw : Int) - 128)) (scaleOf 8)
  | .signed16 => fdiv (f64OfInt (signExtend 16 raw)) (scaleOf 16)
  | .signed24 => fdiv (f64OfInt (signExtend 24 raw)) (scaleOf 24)
  | .signed32 => fdiv (f64OfInt (signExtend 32 raw)) (scaleOf 32)
  | .float32 => f64OfF32 (BitVec.ofNat 32 raw)

/-- `quantize_N` (40_numerics R73): scale, saturate, round to nearest even; a NaN gives 0. -/
def quantize (n : Nat) (v : F64) : Int :=
  let hi : Int := (2 : Int) ^ (n - 1) - 1
  let lo : Int := -(2 : Int) ^ (n - 1)
  let s := fmul v (scaleOf n)
  if isNaN v then 0
  else if fge s (f64OfInt hi) then hi
  else if fle s (f64OfInt lo) then lo
  else rne s

/-- The N-bit pattern of an integer in the N-bit two's-complement range (40_numerics R74, `q mod 2^N`). -/
def patternOf (n : Nat) (q : Int) : Nat := (q % (2 : Int) ^ n).toNat

/-- `encode` (40_numerics R74): the raw sample of a value. -/
def encodeSample (v : F64) : Format → Nat
  | .unsigned8 => (quantize 8 v + 128).toNat
  | .signed16 => patternOf 16 (quantize 16 v)
  | .signed24 => patternOf 24 (quantize 24 v)
  | .signed32 => patternOf 32 (quantize 32 v)
  | .float32 => (f32OfF64 v).toNat

end Sys2Proof.Machine
end

