-- ==== Sys2Proof/Machine/Filter.lean ====
section
/-! DEFINITION. The high-shelf filter: NEW, REINIT and PROCESS (43_filter_commands R112 to R120). -/

namespace Sys2Proof.Machine

/-- `check_config`, then `design`, then `check_finite`, on the staging registers (41 R82, 43 R112). -/
def State.configChecked (s : State) : Except Cause Coefs :=
  if (formatOfTag s.cfg.format).isNone then .error .badFormat
  else if ¬(1 ≤ s.cfg.channels.toNat ∧ s.cfg.channels.toNat ≤ s.maxChannels) then .error .badChannels
  else s.designStaged

/-- What NEW does once `CMD` is written (43 R112). -/
def newCommand (s : State) : Except Cause State :=
  match s.configChecked with
  | .error c => .error c
  | .ok k =>
    .ok ((((s.setCoef k).setShape s.cfg.format s.cfg.channels).clearHistory).setStatus (statusReady s.status))

/-- NEW (43 R112). -/
def execNew (s : State) : Host.Outcome State Fault Refusal :=
  .next (s.issue (encodeCommand .new) newCommand)

/-- What REINIT does once `CMD` is written (43 R113): the history of the channels that stay is kept, every other
slot is zeroed. -/
def reinitCommand (s : State) : Except Cause State :=
  if s.ready = false then .error .notReady
  else match s.configChecked with
    | .error c => .error c
    | .ok k =>
      let kept := min s.actChannels.toNat s.cfg.channels.toNat
      .ok (((s.setCoef k).setShape s.cfg.format s.cfg.channels).setHist (zeroSlotsFrom kept s.hist))

/-- REINIT (43 R113). -/
def execReinit (s : State) : Host.Outcome State Fault Refusal :=
  .next (s.issue (encodeCommand .reinit) reinitCommand)

/-- `nbytes`, in unbounded integers (20_memory R36, 43 R115). -/
def State.bufferBytes (s : State) (fmt : Format) : Nat :=
  s.input.frames.toNat * s.actChannels.toNat * fmt.bytes

/-- `process_checks` (43 R115): the first check that fails, or the active format.  A filter whose active format is no
format, which no run reaches, is a format mismatch (log 11). -/
def processChecks (s : State) : Except Cause Format :=
  if s.ready = false then .error .notReady
  else if s.input.format ≠ s.output.format ∨ s.input.format ≠ s.actFormat then .error .formatMismatch
  else match formatOfTag s.actFormat with
    | none => .error .formatMismatch
    | some fmt =>
      let nbytes := s.bufferBytes fmt
      if s.input.frames ≠ s.output.frames then .error .framesMismatch
      else if s.input.channels ≠ s.output.channels ∨ s.input.channels ≠ s.actChannels then
        .error .channelsMismatch
      else if ¬(admitted s.params.addrWidth s.params.readable s.input.addr.toNat nbytes = true ∧
          admitted s.params.addrWidth s.params.writable s.output.addr.toNat nbytes = true) then .error .badRange
      else if ¬(sameOrDisjoint s.input.addr.toNat s.output.addr.toNat nbytes = true) then .error .badOverlap
      else .ok fmt

/-- The offset of the sample of frame `f` and channel `c` in a buffer (20_memory R35). -/
def sampleOffset (fmt : Format) (channels f c : Nat) : Nat := (f * channels + c) * fmt.bytes

/-- One pass of the loop of PROCESS (43 R116): read, decode, step, store the history, encode, write. -/
def processSample (fmt : Format) (f c : Nat) (s : State) : State :=
  let off := sampleOffset fmt s.actChannels.toNat f c
  let x := decodeSample (Memory.load s.mem (s.input.addr.toNat + off) fmt.bytes) fmt
  let step := biquadStep s.coef (s.slot c) x
  (s.setSlot c step.2).setMem
    (Memory.store s.mem (s.output.addr.toNat + off) fmt.bytes (encodeSample step.1 fmt))

/-- The channels of frame `f`, ascending (43 R116). -/
def processFrame (fmt : Format) (f : Nat) (s : State) : State :=
  loopFrom (fun c => processSample fmt f c) s.actChannels.toNat 0 s

/-- `process_loop` (43 R116): the frames, ascending. -/
def processLoop (fmt : Format) (s : State) : State :=
  loopFrom (processFrame fmt) s.input.frames.toNat 0 s

/-- What PROCESS does once `CMD` is written (43 R114). -/
def processCommand (s : State) : Except Cause State :=
  match processChecks s with
  | .error c => .error c
  | .ok fmt => .ok (processLoop fmt s)

/-- PROCESS (43 R114). -/
def execProcess (s : State) : Host.Outcome State Fault Refusal :=
  .next (s.issue (encodeCommand .process) processCommand)

end Sys2Proof.Machine
end

