-- ==== Sys2Proof/Machine/Transactions.lean ====
section
/-! DEFINITION. The host transactions WR and RD (43_filter_commands R110, R111). -/

namespace Sys2Proof.Machine

/-- What a command does once `CMD` is written. -/
def commandBody : Command → State → Except Cause State
  | .new => newCommand
  | .reinit => reinitCommand
  | .process => processCommand
  | .psample => psampleCommand
  | .clear => clearCommand
  | .latency => latencyCommand
  | .design => designCommand

/-- `execute` (30_encoding R47, 43 R110): the word is stored in `CMD` and run as a command, or fails by name. -/
def State.execute (s : State) (w : Word) : State :=
  match decodeCommand w with
  | .error e => (s.setCmd w).fail (causeOfCommandError e)
  | .ok c => s.issue w (commandBody c)

/-- WR (43 R110): nothing where the number is unmapped or the register read-only, a command where it is `CMD`, else
the 64 bits are stored. -/
def execWr (reg : RegNum) (data : Word) (s : State) : Host.Outcome State Fault Refusal :=
  match regOfNumber s.maxChannels reg.toNat with
  | none => .next s
  | some r =>
    if r.hostWritable = false then .next s
    else if r = .cmd then .next (s.execute data)
    else .next (s.writeReg r data)

/-- RD (43 R111): the register's 64 bits, 0 where the number is unmapped, go to the host; nothing else changes. -/
def execRd (reg : RegNum) (s : State) : Host.Outcome State Fault Refusal :=
  .next (s.giveHost (s.readNumber reg))

end Sys2Proof.Machine
end

