-- ==== Sys2Proof/Machine/Dispatch.lean ====
section
/-! DEFINITION. The meaning of every instruction, one arm per constructor. -/

namespace Sys2Proof.Machine

def exec (i : Instr) (s : State) : Host.Outcome State Fault Refusal :=
  match i with
  | .wr reg data => Sys2Proof.Machine.execWr reg data s
  | .rd reg => Sys2Proof.Machine.execRd reg s
  | .new => Sys2Proof.Machine.execNew s
  | .reinit => Sys2Proof.Machine.execReinit s
  | .process => Sys2Proof.Machine.execProcess s
  | .psample => Sys2Proof.Machine.execPsample s
  | .clear => Sys2Proof.Machine.execClear s
  | .latency => Sys2Proof.Machine.execLatency s
  | .design => Sys2Proof.Machine.execDesign s

end Sys2Proof.Machine
end

