-- ==== Sys2Proof/Machine/HostActions.lean ====
section
/-! DEFINITION. What the host does beside transactions: the reset event and its own stores to sample memory. -/

namespace Sys2Proof.Machine

/-- The reset event (70 R150): every register 0; sample memory and the parameters unchanged, and the host goes on
with its script (log 9). -/
def State.resetEvent (s : State) : State :=
  State.afterReset s.maxChannels s.mem s.params s.script s.returned

/-- A host store of one byte of sample memory (10_state R25, 20_memory R30): a fault where there is no such byte
(log 8). -/
def hostStore (addr : Nat) (byte : Byte) (s : State) : Host.Outcome State Fault Refusal :=
  if addr < 2 ^ s.params.addrWidth then .next (s.setMem (Memory.write s.mem addr byte))
  else .fault (.noSuchByte addr)

/-- The state in which the host issues a transaction before anything else. -/
def State.withTransaction (s : State) (t : Transaction) : State := s.setScript (.transaction t :: s.script)

end Sys2Proof.Machine
end

