-- ==== Sys2Proof/Machine/Step.lean ====
section
/-! DEFINITION. One step: the host's next action. -/

namespace Sys2Proof.Machine

/-- One step: the next action of the host is taken from the script and carried out.  A transaction is decoded and
executed; a host store and a reset are what HostActions says.  With nothing to come the block, which never acts on
its own (00_scope R2, 60 R146), stays as it is (log 5). -/
def step (s : State) : Host.Outcome State Fault Refusal :=
  match s.script with
  | [] => .next s
  | .transaction t :: rest => exec (decode t) (s.setScript rest)
  | .store addr byte :: rest => hostStore addr byte (s.setScript rest)
  | .reset :: rest => .next (s.setScript rest).resetEvent

/-- The state in which the very next step runs the instruction of a row of spec/opcode_table.json: the host issues
its transaction next (log 4). -/
def State.withFetchWord (s : State) (nbits w : Nat) : State := s.withTransaction (tableTransaction nbits w)

end Sys2Proof.Machine
end

