-- ==== Sys2Proof/Safety.lean ====
section
/-! DEFINITION. What holds in every reachable state (10_state R28) and what a safe step is. -/

namespace Sys2Proof.Machine

/-- 10_state R28 item 1: reserved bits 0, a legal code, and a cause exactly when there is a failure. -/
def State.resultInv (s : State) : Bool :=
  decide (s.status.toNat / 2 = 0) && decide (s.result.toNat / 65536 = 0) &&
    decide (resultCode s.result ≤ 2) && (decide (resultCause s.result = 0) == decide (resultCode s.result = 0))

/-- 10_state R28 item 2: without a filter, no shape, no coefficients and no history. -/
def State.emptyInv (s : State) : Bool :=
  s.ready || (decide (s.actFormat = 0) && decide (s.actChannels = 0) && decide (s.coef = Coefs.zero) &&
    s.hist.all (fun h => decide (h = Slot.zero)))

/-- 10_state R28 item 3: with a filter, a legal shape and finite coefficients. -/
def State.filterInv (s : State) : Bool :=
  !s.ready || ((formatOfTag s.actFormat).isSome && decide (1 ≤ s.actChannels.toNat) &&
    decide (s.actChannels.toNat ≤ s.maxChannels) && s.coef.finite)

/-- 10_state R28 item 4: the slots from `ACT_CHANNELS` up are zero. -/
def State.unusedSlotsInv (s : State) : Bool :=
  (s.hist.drop s.actChannels.toNat).all (fun h => decide (h = Slot.zero))

/-- 10_state R28 item 5. -/
def State.retvalInv (s : State) : Bool := decide (s.retval.toNat ≤ 1)

/-- 10_state R28 item 6: the designer outputs are all +0.0 or all finite. -/
def State.designerInv (s : State) : Bool := decide (s.dsn = Coefs.zero) || s.dsn.finite

/-- The six invariants of 10_state R28. -/
def State.registersInv (s : State) : Bool :=
  s.resultInv && s.emptyInv && s.filterInv && s.unusedSlotsInv && s.retvalInv && s.designerInv

/-- The invariants of 10_state R28, and the canonical form of the memory list. -/
def State.inv (s : State) : Bool := s.registersInv && Memory.wf s.mem

/-- A safe outcome: a next state.  No instruction has another one. -/
abbrev Safe (o : Host.Outcome State Fault Refusal) : Prop := ∃ t, o = .next t

/-! ## Checks in order (60 R136): each is the condition of a failure and its cause -/

/-- `c` is the cause of the first check whose failure condition holds. -/
def FirstFailing : List (Prop × Cause) → Cause → Prop
  | [], _ => False
  | (p, d) :: rest, c => (p ∧ c = d) ∨ (¬p ∧ FirstFailing rest c)

/-- No check fails. -/
def NoneFails : List (Prop × Cause) → Prop
  | [] => True
  | (p, _) :: rest => ¬p ∧ NoneFails rest

/-- The designer's checks, in the order of 41 R81 and R86. -/
def designCheckList (t : Transc) (sr : Nat) (g slope f : F64) : List (Prop × Cause) :=
  [ (¬(1 ≤ sr ∧ sr ≤ 2 ^ 32 - 1), .badSampleRate),
    (¬(flt 0 f = true ∧ flt f (fdiv (f64OfNat sr) twoF) = true), .badFrequency),
    (¬(isFinite slope = true ∧ flt 0 slope = true), .badSlope),
    (¬(isFinite g = true), .badGain),
    (¬((design t sr g slope f).finite = true), .nonfiniteCoef) ]

/-- The checks of DESIGN (60 R136). -/
def State.designChecks (s : State) : List (Prop × Cause) :=
  designCheckList s.params.transc s.cfg.sampleRate.toNat s.cfg.gainDb s.cfg.shelfSlope s.cfg.frequency

/-- The checks of NEW (41 R82, 60 R136). -/
def State.newChecks (s : State) : List (Prop × Cause) :=
  (¬(1 ≤ s.cfg.format.toNat ∧ s.cfg.format.toNat ≤ 5), .badFormat) ::
  (¬(1 ≤ s.cfg.channels.toNat ∧ s.cfg.channels.toNat ≤ s.maxChannels), .badChannels) :: s.designChecks

/-- Every address from `lo` up to but not `hi` is in one of the regions. -/
def WithinRegions (regions : List Region) (lo hi : Nat) : Prop :=
  ∀ a, lo ≤ a → a < hi → ∃ r ∈ regions, r.base ≤ a ∧ a < r.base + r.size

/-- `nbytes` of 43 R115, with `bps` of a tag that is no format taken as 0. -/
def State.nbytes (s : State) : Nat :=
  s.input.frames.toNat * s.actChannels.toNat * ((formatOfTag s.actFormat).map Format.bytes).getD 0

/-- The checks of PROCESS, in the order of 43 R115. -/
def State.processCheckList (s : State) : List (Prop × Cause) :=
  [ (s.ready = false, .notReady),
    (s.input.format ≠ s.output.format ∨ s.input.format ≠ s.actFormat, .formatMismatch),
    (s.input.frames ≠ s.output.frames, .framesMismatch),
    (s.input.channels ≠ s.output.channels ∨ s.input.channels ≠ s.actChannels, .channelsMismatch),
    (¬(s.input.addr.toNat + s.nbytes ≤ 2 ^ s.params.addrWidth ∧
        WithinRegions s.params.readable s.input.addr.toNat (s.input.addr.toNat + s.nbytes)) ∨
      ¬(s.output.addr.toNat + s.nbytes ≤ 2 ^ s.params.addrWidth ∧
        WithinRegions s.params.writable s.output.addr.toNat (s.output.addr.toNat + s.nbytes)), .badRange),
    (¬(s.input.addr = s.output.addr ∨ s.input.addr.toNat + s.nbytes ≤ s.output.addr.toNat ∨
        s.output.addr.toNat + s.nbytes ≤ s.input.addr.toNat), .badOverlap) ]

/-- The checks of every command (60 R136). -/
def State.checksOf (s : State) : Command → List (Prop × Cause)
  | .new => s.newChecks
  | .reinit => (s.ready = false, .notReady) :: s.newChecks
  | .process => s.processCheckList
  | .psample => [(s.ready = false, .notReady), (¬(s.psChannel.toNat < s.actChannels.toNat), .badChannelIndex)]
  | .clear => [(s.ready = false, .notReady)]
  | .latency => []
  | .design => s.designChecks

/-- The instruction runs the command: it is the command's constructor, or the WR of its word to `CMD`. -/
def isRunBy (c : Command) (i : Instr) : Prop := i = c.toInstr ∨ i = .wr cmdNumber (encodeCommand c)

/-! ## The stream of one channel (42 R97, R100): what a PROCESS makes of it, from the state it starts in -/

/-- The decoded input sample of frame `f` and channel `c` (20_memory R35, 43 R116). -/
def State.inputSample (s : State) (fmt : Format) (f c : Nat) : F64 :=
  decodeSample (Memory.load s.mem (s.input.addr.toNat + (f * s.actChannels.toNat + c) * fmt.bytes) fmt.bytes) fmt

/-- The history of channel `c` after its first `f` samples. -/
def State.channelHistory (s : State) (fmt : Format) (c : Nat) : Nat → Slot
  | 0 => s.slot c
  | f + 1 => (biquadStep s.coef (s.channelHistory fmt c f) (s.inputSample fmt f c)).2

/-- The output of channel `c` for frame `f`, before it is encoded. -/
def State.channelOutput (s : State) (fmt : Format) (c f : Nat) : F64 :=
  (biquadStep s.coef (s.channelHistory fmt c f) (s.inputSample fmt f c)).1

/-- The state with both buffers of `frames` frames at the given addresses, shapes unchanged. -/
def State.withBuffers (s : State) (inAddr outAddr frames : Nat) : State :=
  { s with
    input := { s.input with addr := BitVec.ofNat 64 inAddr, frames := BitVec.ofNat 64 frames }
    output := { s.output with addr := BitVec.ofNat 64 outAddr, frames := BitVec.ofNat 64 frames } }

/-! ## Exact values -/

/-- The exact value of a finite pattern, in quanta of `2^-1074`; an infinity counts as `2^2098` quanta of its sign,
which is more than every finite value. -/
def signedQuanta (a : F64) : Int := if signOf a then -(quanta a : Int) else (quanta a : Int)

end Sys2Proof.Machine
end

