-- ==== Sys2Proof/Certificates/Slice0/Obligations.lean ====
section
/-! DEFINITION. The statements for the provers, from the numbered rules of spec/. -/

open Sys2Proof Sys2Proof.Machine

/-! ## Encodings -/

/-- Every well-formed instruction is decoded from its own transaction, with every operand at every value (30_encoding
R45, R48). -/
def Obligations.EncodedInstructionDecodesBack : Prop :=
  ∀ i : Instr, i.wellFormed = true → decode (encode i) = i

/-- The opcode map of 30_encoding R48: the seven command words as words and as WRs to `CMD`; opcode 0x00 and opcodes
0x08 to 0xFF name no command.  Then two WRs of 96 program P1, an RD, and an RD whose DATA is not 0 (R45, R54). -/
def Obligations.OpcodeMapNamesSevenCommands : Prop :=
  decodeCommand 0x0000000000000001 = .ok .new ∧ decodeCommand 0x0000000000000002 = .ok .reinit ∧
  decodeCommand 0x0000000000000003 = .ok .process ∧ decodeCommand 0x0000000000000004 = .ok .psample ∧
  decodeCommand 0x0000000000000005 = .ok .clear ∧ decodeCommand 0x0000000000000006 = .ok .latency ∧
  decodeCommand 0x0000000000000007 = .ok .design ∧
  (∀ b : Nat, b = 0 ∨ (8 ≤ b ∧ b ≤ 255) → decodeCommand (BitVec.ofNat 64 b) = .error .unknownOpcode) ∧
  decode 0x10080000000000000001 = .new ∧ decode 0x10080000000000000002 = .reinit ∧
  decode 0x10080000000000000003 = .process ∧ decode 0x10080000000000000004 = .psample ∧
  decode 0x10080000000000000005 = .clear ∧ decode 0x10080000000000000006 = .latency ∧
  decode 0x10080000000000000007 = .design ∧
  decode 0x10010000000000000001 = .wr 0x001 1 ∧ decode 0x10034018000000000000 = .wr 0x003 0x4018000000000000 ∧
  decode 0x00090000000000000000 = .rd 0x009 ∧ decode 0x0102000000000000FFFF = .rd 0x102

/-- A word written to `CMD` (30_encoding R47): with a reserved bit set it fails with cause 15, else the low byte names
one of the seven commands, else it fails with cause 16; a failure leaves `CMD` and `RESULT` alone changed. -/
def Obligations.CommandWordIsExecuted : Prop :=
  ∀ (w : Word) (s : State),
    (w.extractLsb' 8 56 ≠ 0 → exec (.wr 0x008 w) s = .next { s with cmd := w, result := 0x0F02 }) ∧
    (w.extractLsb' 8 56 = 0 →
      (w.extractLsb' 0 8 = 1 → exec (.wr 0x008 w) s = exec .new s) ∧
      (w.extractLsb' 0 8 = 2 → exec (.wr 0x008 w) s = exec .reinit s) ∧
      (w.extractLsb' 0 8 = 3 → exec (.wr 0x008 w) s = exec .process s) ∧
      (w.extractLsb' 0 8 = 4 → exec (.wr 0x008 w) s = exec .psample s) ∧
      (w.extractLsb' 0 8 = 5 → exec (.wr 0x008 w) s = exec .clear s) ∧
      (w.extractLsb' 0 8 = 6 → exec (.wr 0x008 w) s = exec .latency s) ∧
      (w.extractLsb' 0 8 = 7 → exec (.wr 0x008 w) s = exec .design s) ∧
      ((w.extractLsb' 0 8 = 0 ∨ 8 ≤ (w.extractLsb' 0 8).toNat) →
        exec (.wr 0x008 w) s = .next { s with cmd := w, result := 0x1002 }))

/-! ## The step and the host's actions -/

/-- A step executes the host's next transaction, decoded, in the state with that transaction taken from the script (the
script is the model's, log 4). -/
def Obligations.StepRunsTheNextTransaction : Prop :=
  ∀ (s : State) (t : Transaction) (rest : List HostAction), s.script = .transaction t :: rest →
    step s = exec (decode t) { s with script := rest }

/-- The model's own choices (log 4, 5, 8): a host store writes one byte, below `2^ADDR_WIDTH`, and faults elsewhere;
with no host action to come the block stays as it is. -/
def Obligations.HostStoresAndIdleSteps : Prop :=
  (∀ (s : State) (a : Nat) (b : Byte) (rest : List HostAction), s.script = .store a b :: rest →
    (a < 2 ^ s.params.addrWidth →
      step s = .next { s with script := rest, mem := Memory.write s.mem a b }) ∧
    (2 ^ s.params.addrWidth ≤ a → step s = .fault (.noSuchByte a))) ∧
  (∀ s : State, s.script = [] → step s = .next s)

/-- The reset event as a host action (70 section 1; that it is a host action after which the script goes on is the
model's choice, log 9): every register reads 0, every history slot is zero, sample memory and the parameters are
unchanged, and the invariants of 10_state R28 hold. -/
def Obligations.ResetEventZeroesEveryRegister : Prop :=
  ∀ (s : State) (rest : List HostAction), s.script = .reset :: rest →
    ∃ t, step s = .next t ∧ (∀ n : RegNum, t.readNumber n = 0) ∧ (∀ c, t.slot c = ⟨0, 0, 0, 0⟩) ∧
      t.mem = s.mem ∧ t.params = s.params ∧ t.maxChannels = s.maxChannels ∧ t.registersInv = true ∧ t.script = rest

/-- 10_state R29: after reset, from any state, every register holds 0, sample memory is unchanged, and the history is
out of sight of PROCESS and PSAMPLE, which fail, until a NEW, which leaves it zero. -/
def Obligations.ResetLeavesEveryRegisterZero : Prop :=
  (∀ n : RegNum, State.reset.readNumber n = 0) ∧
  ∀ s : State, (∀ n : RegNum, s.resetEvent.readNumber n = 0) ∧ s.resetEvent.ready = false ∧
    s.resetEvent.result = 0 ∧ s.resetEvent.cmd = 0 ∧ s.resetEvent.mem = s.mem ∧
    exec .process s.resetEvent = .next { s.resetEvent with cmd := 3, result := 0x0101 } ∧
    exec .psample s.resetEvent = .next { s.resetEvent with cmd := 4, result := 0x0101 } ∧
    ∀ (k : Configuration) (t : State), exec .new { s.resetEvent with cfg := k } = .next t →
      ∀ c, t.slot c = ⟨0, 0, 0, 0⟩

/-- The state the model starts in: no filter, the invariants of 10_state R28, and the default parameters of 00_scope R5.
That these stand in the state is the model's choice (log 1), and so are the empty sample memory, the empty script and
the empty list of returned values (log 4, 6, 7), which are not said. -/
def Obligations.ResetStateHasTheDefaultParameters : Prop :=
  State.reset.ready = false ∧ State.reset.inv = true ∧
    State.reset.maxChannels = 32 ∧ State.reset.params.addrWidth = 32 ∧
    State.reset.params.transc = .correctlyRounded ∧
    (∀ a, a < 2 ^ 32 → WithinRegions State.reset.params.readable a (a + 1) ∧
      WithinRegions State.reset.params.writable a (a + 1))

/-! ## Invariants -/

/-- 10_state R28: its six invariants hold after reset and every step keeps them, whatever the host does. -/
def Obligations.EveryStepKeepsRegisterInvariants : Prop :=
  State.reset.registersInv = true ∧
  ∀ s t : State, s.registersInv = true → step s = .next t → t.registersInv = true

/-- The model's own choices (log 1, 7): the memory list is canonical after reset and stays so, and the parameters, the
number of history slots among them, do not change while the block runs (10_state section 12). -/
def Obligations.EveryStepKeepsMemoryFormAndParameters : Prop :=
  Memory.wf State.reset.mem = true ∧
  ∀ s t : State, step s = .next t →
    (Memory.wf s.mem = true → Memory.wf t.mem = true) ∧ t.params = s.params ∧ t.maxChannels = s.maxChannels

/-- Every transaction has one outcome and no instruction stops the block (00_scope R8, 60 R139). -/
def Obligations.EveryInstructionCompletes : Prop := ∀ (i : Instr) (s : State), Safe (exec i s)

/-! ## Host transactions -/

/-- WR (43 R110).  Of any number but `CMD`: a read-write register stores all 64 bits, a read-only or unmapped one ignores
the write; every other register, the history, sample memory and `RESULT` are as before.  Of `CMD`: the word is stored and
executed (30_encoding R47). -/
def Obligations.WrStoresReadWriteRegistersOnly : Prop :=
  (∀ (n : RegNum) (v : Word) (s : State), n ≠ 0x008 →
    ∃ t, exec (.wr n v) s = .next t ∧
      (∀ m : RegNum, t.readNumber m =
        if m = n ∧ (n.toNat ≤ 0x005 ∨ n = 0x00C ∨ n = 0x00D ∨ (0x010 ≤ n.toNat ∧ n.toNat ≤ 0x017)) then v
        else s.readNumber m) ∧
      t.hist = s.hist ∧ t.mem = s.mem ∧ t.params = s.params ∧ t.script = s.script ∧ t.returned = s.returned) ∧
  (∀ (v : Word) (s : State), ∃ t, exec (.wr 0x008 v) s = .next t ∧ t.readNumber 0x008 = v) ∧
  (∀ (c : Command) (s : State), exec (.wr 0x008 (encodeCommand c)) s = exec c.toInstr s)

/-- RD (43 R111): the register's content, 0 for an unmapped number, is returned to the host and nothing else changes.
That the returned values are kept in a list is the model's choice (log 6). -/
def Obligations.RdReturnsTheRegister : Prop :=
  ∀ (n : RegNum) (s : State),
    exec (.rd n) s = .next { s with returned :=
      (match regOfNumber s.maxChannels n.toNat with
        | some r => s.reg r
        | none => 0) :: s.returned }

/-- The register numbers of 10_state R23 outside the history file. -/
def Obligations.RegisterNumbersNameTheirRegisters : Prop :=
  ∀ s : State,
    s.readNumber 0x000 = s.cfg.format ∧ s.readNumber 0x001 = s.cfg.channels ∧ s.readNumber 0x002 = s.cfg.sampleRate ∧
    s.readNumber 0x003 = s.cfg.gainDb ∧ s.readNumber 0x004 = s.cfg.shelfSlope ∧ s.readNumber 0x005 = s.cfg.frequency ∧
    s.readNumber 0x008 = s.cmd ∧ s.readNumber 0x009 = s.result ∧ s.readNumber 0x00A = s.status ∧
    s.readNumber 0x00B = s.retval ∧ s.readNumber 0x00C = s.psChannel ∧ s.readNumber 0x00D = s.psX ∧
    s.readNumber 0x00E = s.psY ∧ s.readNumber 0x010 = s.input.addr ∧ s.readNumber 0x011 = s.input.format ∧
    s.readNumber 0x012 = s.input.channels ∧ s.readNumber 0x013 = s.input.frames ∧ s.readNumber 0x014 = s.output.addr ∧
    s.readNumber 0x015 = s.output.format ∧ s.readNumber 0x016 = s.output.channels ∧
    s.readNumber 0x017 = s.output.frames ∧ s.readNumber 0x020 = s.actFormat ∧ s.readNumber 0x021 = s.actChannels ∧
    s.readNumber 0x028 = s.coef.b0 ∧ s.readNumber 0x029 = s.coef.b1 ∧ s.readNumber 0x02A = s.coef.b2 ∧
    s.readNumber 0x02B = s.coef.a1 ∧ s.readNumber 0x02C = s.coef.a2 ∧ s.readNumber 0x030 = s.dsn.b0 ∧
    s.readNumber 0x031 = s.dsn.b1 ∧ s.readNumber 0x032 = s.dsn.b2 ∧ s.readNumber 0x033 = s.dsn.a1 ∧
    s.readNumber 0x034 = s.dsn.a2

/-- 10_state R14 and R24: field `k` of slot `c` is register `0x100 + 4c + k`, and the host cannot write it. -/
def Obligations.HistoryRegistersAreNumberedAndReadOnly : Prop :=
  ∀ (s : State) (c : Nat), s.maxChannels ≤ 960 → c < s.maxChannels →
    s.readNumber (BitVec.ofNat 12 (0x100 + 4 * c)) = (s.slot c).x1 ∧
    s.readNumber (BitVec.ofNat 12 (0x100 + 4 * c + 1)) = (s.slot c).x2 ∧
    s.readNumber (BitVec.ofNat 12 (0x100 + 4 * c + 2)) = (s.slot c).y1 ∧
    s.readNumber (BitVec.ofNat 12 (0x100 + 4 * c + 3)) = (s.slot c).y2 ∧
    ∀ (k : Nat) (v : Word), k < 4 → exec (.wr (BitVec.ofNat 12 (0x100 + 4 * c + k)) v) s = .next s

/-- The unmapped numbers that 10_state R23 lists read 0 and ignore writes (R24). -/
def Obligations.UnmappedNumbersReadZeroAndIgnoreWrites : Prop :=
  ∀ (s : State) (n : RegNum),
    (n = 0x006 ∨ n = 0x007 ∨ n = 0x00F ∨ (0x018 ≤ n.toNat ∧ n.toNat ≤ 0x01F) ∨ (0x022 ≤ n.toNat ∧ n.toNat ≤ 0x027) ∨
      (0x02D ≤ n.toNat ∧ n.toNat ≤ 0x02F) ∨ (0x035 ≤ n.toNat ∧ n.toNat ≤ 0x0FF) ∨
      0x100 + 4 * s.maxChannels ≤ n.toNat) →
    exec (.rd n) s = .next { s with returned := 0 :: s.returned } ∧ ∀ v : Word, exec (.wr n v) s = .next s

/-! ## Results and failures -/

/-- 60 R134: a command that fails changes `CMD` and `RESULT` only. -/
def Obligations.FailedCommandChangesOnlyCmdAndResult : Prop :=
  ∀ (w : Word) (s t : State), exec (.wr 0x008 w) s = .next t → resultCode t.result ≠ 0 →
    (resultCode t.result = 1 ∨ resultCode t.result = 2) ∧ t = { s with cmd := w, result := t.result }

/-- 10_state R18, 60 R130: what `RESULT` can be after a command, that nothing but a command writes it, and that a command
leaves nothing of what it held before. -/
def Obligations.ResultHoldsTheLatestCommandsOutcome : Prop :=
  (∀ (w : Word) (s t : State), exec (.wr 0x008 w) s = .next t →
    t.result = 0 ∨ (∃ c : Nat, 1 ≤ c ∧ c ≤ 14 ∧ t.result = BitVec.ofNat 64 (c * 256 + 1)) ∨
      (∃ c : Nat, 15 ≤ c ∧ c ≤ 16 ∧ t.result = BitVec.ofNat 64 (c * 256 + 2))) ∧
  (∀ (w r : Word) (s : State), exec (.wr 0x008 w) { s with result := r } = exec (.wr 0x008 w) s) ∧
  (∀ (n : RegNum) (v : Word) (s t : State), n ≠ 0x008 → exec (.wr n v) s = .next t → t.result = s.result) ∧
  (∀ (n : RegNum) (s t : State), exec (.rd n) s = .next t → t.result = s.result)

/-- 60 R136: a word with a reserved bit set fails before anything else, then a word of no opcode; every command reports
the first failure that holds in its order of checks, and succeeds when none does. -/
def Obligations.FirstFailingCheckIsReported : Prop :=
  (∀ (w : Word) (s : State), 256 ≤ w.toNat → exec (.wr 0x008 w) s = .next { s with cmd := w, result := 0x0F02 }) ∧
  (∀ (w : Word) (s : State), w.toNat = 0 ∨ (8 ≤ w.toNat ∧ w.toNat < 256) →
    exec (.wr 0x008 w) s = .next { s with cmd := w, result := 0x1002 }) ∧
  (∀ (s : State) (c : Command), exec (.wr 0x008 (encodeCommand c)) s = exec c.toInstr s) ∧
  ∀ (s : State) (c : Command), s.filterInv = true →
    (∀ k : Cause, FirstFailing (s.checksOf c) k →
      exec c.toInstr s = .next { s with cmd := encodeCommand c, result := BitVec.ofNat 64 (k.number * 256 + k.code) }) ∧
    (NoneFails (s.checksOf c) →
      ∃ t, exec c.toInstr s = .next t ∧ t.cmd = encodeCommand c ∧ t.result = 0)

/-- 10_state R19: a successful NEW sets `READY`, nothing else changes `STATUS`, its reserved bits stay 0, and reset clears
it. -/
def Obligations.ReadyIsSetBySuccessfulNewOnly : Prop :=
  (∀ (i : Instr) (s t : State), exec i s = .next t → t.status ≠ s.status →
    isRunBy .new i ∧ t.result = 0 ∧ s.ready = false ∧ t.status = s.status ||| 1) ∧
  (∀ s t : State, exec .new s = .next t → t.result = 0 → t.ready = true) ∧
  (∀ (i : Instr) (s t : State), exec i s = .next t → s.status.toNat / 2 = 0 → t.status.toNat / 2 = 0) ∧
  ∀ s : State, s.resetEvent.status = 0

/-- 10_state R12 to R16 and R20, 20_memory R38: which command writes what the host cannot write, and that it succeeds. -/
def Obligations.OnlyTheNamedCommandsWriteReadOnlyState : Prop :=
  ∀ (i : Instr) (s t : State), exec i s = .next t →
    (t.coef ≠ s.coef → (isRunBy .new i ∨ isRunBy .reinit i) ∧ t.result = 0) ∧
    (t.actFormat ≠ s.actFormat ∨ t.actChannels ≠ s.actChannels →
      (isRunBy .new i ∨ isRunBy .reinit i) ∧ t.result = 0 ∧
        t.actFormat = s.cfg.format ∧ t.actChannels = s.cfg.channels) ∧
    (t.dsn ≠ s.dsn → isRunBy .design i ∧ t.result = 0) ∧
    (t.psY ≠ s.psY → isRunBy .psample i ∧ t.result = 0) ∧
    (t.retval ≠ s.retval → isRunBy .latency i ∧ t.retval = 1) ∧
    (t.hist ≠ s.hist → (isRunBy .new i ∨ isRunBy .reinit i ∨ isRunBy .process i ∨
      isRunBy .psample i ∨ isRunBy .clear i) ∧ t.result = 0) ∧
    (t.mem ≠ s.mem → isRunBy .process i ∧ t.result = 0)

/-- 70 R152: what the commands do straight after reset, and that DESIGN needs only valid staging values. -/
def Obligations.CommandsStraightAfterReset : Prop :=
  ∀ s : State,
    exec .latency s.resetEvent = .next { s.resetEvent with cmd := 6, retval := 1 } ∧
    exec .reinit s.resetEvent = .next { s.resetEvent with cmd := 2, result := 0x0101 } ∧
    exec .process s.resetEvent = .next { s.resetEvent with cmd := 3, result := 0x0101 } ∧
    exec .psample s.resetEvent = .next { s.resetEvent with cmd := 4, result := 0x0101 } ∧
    exec .clear s.resetEvent = .next { s.resetEvent with cmd := 5, result := 0x0101 } ∧
    exec .new s.resetEvent = .next { s.resetEvent with cmd := 1, result := 0x0201 } ∧
    ∀ k : Configuration, NoneFails ({ s.resetEvent with cfg := k } : State).designChecks →
      ∃ t, exec .design { s.resetEvent with cfg := k } = .next t ∧ t.result = 0 ∧ t.ready = false

/-! ## The biquad core -/

/-- 42 R103: LATENCY reports 1, always succeeds and changes nothing else. -/
def Obligations.LatencyReportsOne : Prop :=
  ∀ s : State, exec .latency s = .next { s with cmd := 6, retval := 1, result := 0 }

/-- 42 R102: CLEAR zeroes every history slot and nothing else, or fails where no filter exists. -/
def Obligations.ClearZeroesTheHistory : Prop :=
  ∀ s : State,
    (s.ready = true → exec .clear s =
      .next { s with cmd := 5, result := 0, hist := List.replicate s.hist.length ⟨0, 0, 0, 0⟩ }) ∧
    (s.ready = false → exec .clear s = .next { s with cmd := 5, result := 0x0101 })

/-- 42 R96: the step function as its nine rounded operations, and the shift. -/
def Obligations.BiquadStepIsTheDirectForm : Prop :=
  ∀ (k : Coefs) (h : Slot) (x : F64),
    let t1 := fadd (fmul k.b0 x) (fmul k.b1 h.x1)
    let t2 := fadd t1 (fmul k.b2 h.x2)
    let t3 := fsub t2 (fmul k.a1 h.y1)
    let y := fsub t3 (fmul k.a2 h.y2)
    biquadStep k h x = (y, ⟨x, h.x1, y, h.y1⟩)

/-- 42 R101, R100: PSAMPLE steps the selected channel on `PS_X` and no other, or fails with cause 1 or 14.  A NaN pattern
in `PS_X` enters as the canonical NaN (log 13). -/
def Obligations.PsampleStepsOneChannel : Prop :=
  ∀ s : State,
    (s.ready = false → exec .psample s = .next { s with cmd := 4, result := 0x0101 }) ∧
    (s.ready = true → s.actChannels.toNat ≤ s.psChannel.toNat →
      exec .psample s = .next { s with cmd := 4, result := 0x0E01 }) ∧
    (s.ready = true → s.psChannel.toNat < s.actChannels.toNat → s.actChannels.toNat ≤ s.maxChannels →
      ∃ t, exec .psample s = .next t ∧
        t = { s with cmd := 4, result := 0, psY := t.psY, hist := t.hist } ∧
        (t.psY, t.slot s.psChannel.toNat) = biquadStep s.coef (s.slot s.psChannel.toNat)
          (if isNaN s.psX then 0x7FF8000000000000 else s.psX) ∧
        (∀ d, d ≠ s.psChannel.toNat → t.slot d = s.slot d) ∧ t.maxChannels = s.maxChannels)

/-- 42 R98: from a zero history the first output is the product `b0 * x`, or a zero where that is one. -/
def Obligations.FirstOutputIsTheFirstProduct : Prop :=
  ∀ (k : Coefs) (x : F64), k.finite = true → isFinite x = true →
    (isZero (fmul k.b0 x) = false → (biquadStep k ⟨0, 0, 0, 0⟩ x).1 = fmul k.b0 x) ∧
    (isZero (fmul k.b0 x) = true → isZero (biquadStep k ⟨0, 0, 0, 0⟩ x).1 = true) ∧
    (k.b0 = 0x3FF0000000000000 → isZero x = false → (biquadStep k ⟨0, 0, 0, 0⟩ x).1 = x)

/-- 42 R99: a NaN in the output history makes the output and the next `y1` the canonical NaN, whatever the input, so it
never leaves; a NaN input goes to the output and to `x1`. -/
def Obligations.NanInTheHistoryStays : Prop :=
  (∀ (k : Coefs) (h : Slot) (x : F64), isNaN h.y1 = true ∨ isNaN h.y2 = true →
    (biquadStep k h x).1 = 0x7FF8000000000000 ∧ (biquadStep k h x).2.y1 = 0x7FF8000000000000) ∧
  (∀ (k : Coefs) (h : Slot) (x : F64), isNaN x = true ∨ isNaN h.x1 = true ∨ isNaN h.x2 = true →
    (biquadStep k h x).1 = 0x7FF8000000000000 ∧ (biquadStep k h x).2.x1 = x)

/-! ## The designer -/

/-- 41 R81, R86, R87: `design_checked` reports the first constraint violated, in order, and else the five coefficients of
`design`, all finite. -/
def Obligations.DesignCheckedFollowsItsChecks : Prop :=
  ∀ (tr : Transc) (sr : Nat) (g slope f : F64),
    (∀ c : Cause, FirstFailing (designCheckList tr sr g slope f) c → designChecked tr sr g slope f = .error c) ∧
    (NoneFails (designCheckList tr sr g slope f) →
      designChecked tr sr g slope f = .ok (design tr sr g slope f)) ∧
    (∀ k : Coefs, designChecked tr sr g slope f = .ok k →
      isFinite k.b0 = true ∧ isFinite k.b1 = true ∧ isFinite k.b2 = true ∧ isFinite k.a1 = true ∧ isFinite k.a2 = true)

/-- 41 R84: `design` as its fixed sequence of operations. -/
def Obligations.DesignIsTheFixedSequence : Prop :=
  ∀ (tr : Transc) (sr : Nat) (g S f : F64),
    let w := fdiv (fmul 0x401921FB54442D18 f) (f64OfNat sr)
    let s := sin64 tr w
    let c := cos64 tr w
    let e := fdiv g 0x4044000000000000
    let A := pow10 tr e
    let t1 := fadd A (fdiv 0x3FF0000000000000 A)
    let t2 := fsub (fdiv 0x3FF0000000000000 S) 0x3FF0000000000000
    let t3 := fadd (fmul t1 t2) 0x4000000000000000
    let alpha := fmul (fdiv s 0x4000000000000000) (fsqrt t3)
    let beta := fmul (fmul 0x4000000000000000 (fsqrt A)) alpha
    let ap1 := fadd A 0x3FF0000000000000
    let am1 := fsub A 0x3FF0000000000000
    let u := fadd ap1 (fmul am1 c)
    let v := fsub ap1 (fmul am1 c)
    let a0r := fadd v beta
    design tr sr g S f =
      { b0 := fdiv (fmul A (fadd u beta)) a0r
        b1 := fdiv (fmul (fmul 0xC000000000000000 A) (fadd am1 (fmul ap1 c))) a0r
        b2 := fdiv (fmul A (fsub u beta)) a0r
        a1 := fdiv (fmul 0x4000000000000000 (fsub am1 (fmul ap1 c))) a0r
        a2 := fdiv (fsub v beta) a0r }

/-- 41 R88: DESIGN writes the five `DSN_*` with the design of the staged values and nothing else, or fails. -/
def Obligations.DesignWritesDesignerOutputsOnly : Prop :=
  ∀ s : State,
    (NoneFails s.designChecks → exec .design s =
      .next
      { s with
        cmd := 7
        result := 0
        dsn := design s.params.transc s.cfg.sampleRate.toNat s.cfg.gainDb s.cfg.shelfSlope s.cfg.frequency }) ∧
    (∀ c : Cause, FirstFailing s.designChecks c →
      exec .design s = .next { s with cmd := 7, result := BitVec.ofNat 64 (c.number * 256 + 1) })

/-- 41 R90, the zero-gain identity, for every `TRANSC`: with a finite cosine that is not a zero and a finite `beta` that
is not negative, `b0` is 1.0 and the feed-forward and feedback coefficients agree bit for bit.  That `beta` is finite is
a premise because R90's remark that it always is does not hold for every slope (log 16). -/
def Obligations.ZeroGainGivesTheIdentityFilter : Prop :=
  ∀ (tr : Transc) (sr : Nat) (g slope f : F64),
    let c := cos64 tr (angularFrequency sr f)
    let beta := shelfBeta (sin64 tr (angularFrequency sr f)) oneF slope
    let k := design tr sr g slope f
    checkDesign sr g slope f = none → isZero g = true →
    isFinite c = true → isZero c = false → isFinite beta = true → signOf beta = false →
    k.b0 = oneF ∧ k.b1 = k.a1 ∧ k.b2 = k.a2

/-- 40_numerics R66 and R67: every `TRANSC`, the default one and any other, has the properties T-NAN, T-RANGE and T-ONE,
and a NaN result is the canonical NaN. -/
def Obligations.EveryTranscHasItsNamedProperties : Prop :=
  ∀ tr : Transc,
    (∀ x : F64, isNaN x = true → sin64 tr x = nan64 ∧ cos64 tr x = nan64 ∧ pow10 tr x = nan64) ∧
    (∀ x : F64, isInf x = true → sin64 tr x = nan64 ∧ cos64 tr x = nan64) ∧
    pow10 tr 0x7FF0000000000000 = 0x7FF0000000000000 ∧ pow10 tr 0xFFF0000000000000 = 0 ∧
    (∀ x : F64, isFinite x = true →
      fle 0xBFF0000000000000 (sin64 tr x) = true ∧ fle (sin64 tr x) oneF = true ∧
      fle 0xBFF0000000000000 (cos64 tr x) = true ∧ fle (cos64 tr x) oneF = true) ∧
    (∀ x : F64, isNaN x = false → isNaN (pow10 tr x) = false ∧ signOf (pow10 tr x) = false) ∧
    pow10 tr 0 = oneF ∧ pow10 tr 0x8000000000000000 = oneF ∧
    (∀ x : F64, (isNaN (sin64 tr x) = true → sin64 tr x = nan64) ∧ (isNaN (cos64 tr x) = true → cos64 tr x = nan64) ∧
      (isNaN (pow10 tr x) = true → pow10 tr x = nan64))

/-- 40_numerics R66, T-ACC: the values another `TRANSC` chooses from are, for a magnitude that is a ratio of naturals,
exactly the patterns less than one unit in the last place away, at least one in number; what it gives is always one of
them.  That the ratio stands for the real value of the function is the model's and is not claimed (log 2, 3). -/
def Obligations.OtherTranscValuesAreAccurate : Prop :=
  (∀ num den p : Nat, 0 < den →
    (p ∈ nearby num den ↔
      (den * ((2 ^ 54 - 1) * 2 ^ 2044) ≤ num ∧ p = infBits) ∨
      (num < den * ((2 ^ 54 - 1) * 2 ^ 2044) ∧ p < infBits ∧
        |(num : Int) - (den : Int) * (quantaOfBits 52 p : Int)| < 2 ^ (p / 2 ^ 52 - 1) * (den : Int)))) ∧
  (∀ num den : Nat, 0 < den → nearby num den ≠ []) ∧
  (∀ (id : Nat) (x : F64), isFinite x = true →
    sin64 (.other id) x ∈ sinAllowed x ∧ cos64 (.other id) x ∈ cosAllowed x) ∧
  (∀ (id : Nat) (x : F64), isFinite x = true → isZero x = false →
    ∃ p ∈ pow10Allowed x, pow10 (.other id) x = pack false p)

/-! ## The filter -/

/-- 43 R112: NEW builds the filter of the staged Configuration with a zero history, or fails. -/
def Obligations.NewConstructsTheFilter : Prop :=
  ∀ s : State,
    (NoneFails s.newChecks → exec .new s =
      .next
      { s with
        cmd := 1
        result := 0
        status := s.status ||| 1
        coef := design s.params.transc s.cfg.sampleRate.toNat s.cfg.gainDb s.cfg.shelfSlope s.cfg.frequency
        actFormat := s.cfg.format
        actChannels := s.cfg.channels
        hist := List.replicate s.hist.length ⟨0, 0, 0, 0⟩ }) ∧
    (∀ c : Cause, FirstFailing s.newChecks c →
      exec .new s = .next { s with cmd := 1, result := BitVec.ofNat 64 (c.number * 256 + 1) })

/-- 43 R113: REINIT redesigns, keeps the history of the channels below `min(old, new)` and zeroes every other slot, or
fails. -/
def Obligations.ReinitRedesignsAndKeepsHistory : Prop :=
  ∀ s : State,
    (s.ready = true → NoneFails s.newChecks → ∃ h : List Slot, exec .reinit s =
      .next
      { s with
        cmd := 2
        result := 0
        coef := design s.params.transc s.cfg.sampleRate.toNat s.cfg.gainDb s.cfg.shelfSlope s.cfg.frequency
        actFormat := s.cfg.format
        actChannels := s.cfg.channels
        hist := h } ∧ h.length = s.hist.length ∧
      ∀ c, c < s.hist.length → h.getD c ⟨0, 0, 0, 0⟩ =
        if c < min s.actChannels.toNat s.cfg.channels.toNat then s.slot c else ⟨0, 0, 0, 0⟩) ∧
    (s.ready = false → exec .reinit s = .next { s with cmd := 2, result := 0x0101 }) ∧
    (∀ c : Cause, s.ready = true → FirstFailing s.newChecks c →
      exec .reinit s = .next { s with cmd := 2, result := BitVec.ofNat 64 (c.number * 256 + 1) })

/-- 43 R113 corner case 1, R121: with the channel count unchanged REINIT changes no history register. -/
def Obligations.ReinitWithSameChannelsKeepsAllHistory : Prop :=
  ∀ s t : State, s.unusedSlotsInv = true → s.cfg.channels = s.actChannels → exec .reinit s = .next t → t.hist = s.hist

/-- 43 R116 with 42 R97 and R100: PROCESS makes of every channel its own stream of steps over the samples as they were
before the command, writes each output where its input stands in the layout, and leaves every other byte, every slot
from `ACT_CHANNELS` up and every register but `CMD` and `RESULT` as they were. -/
def Obligations.ProcessRunsEveryChannelsStream : Prop :=
  ∀ (s : State) (fmt : Format), s.filterInv = true → Memory.wf s.mem = true → NoneFails s.processCheckList →
    formatOfTag s.actFormat = some fmt →
    ∃ t, exec .process s = .next t ∧ t = { s with cmd := 3, result := 0, hist := t.hist, mem := t.mem } ∧
      t.maxChannels = s.maxChannels ∧
      (∀ f c, f < s.input.frames.toNat → c < s.actChannels.toNat →
        Memory.load t.mem (s.output.addr.toNat + (f * s.actChannels.toNat + c) * fmt.bytes) fmt.bytes =
          encodeSample (s.channelOutput fmt c f) fmt) ∧
      (∀ c, c < s.actChannels.toNat → t.slot c = s.channelHistory fmt c s.input.frames.toNat) ∧
      (∀ c, s.actChannels.toNat ≤ c → t.slot c = s.slot c) ∧
      (∀ a, a < s.output.addr.toNat ∨ s.output.addr.toNat + s.nbytes ≤ a → Memory.read t.mem a = Memory.read s.mem a)

/-- 43 R117: processing in place gives the bytes and the history that processing into a separate buffer gives, whatever
that buffer held. -/
def Obligations.InPlaceEqualsSeparateBuffers : Prop :=
  ∀ (s : State) (outAddr : Word) (m : List Host.Cell) (t u : State),
    s.filterInv = true → Memory.wf s.mem = true → Memory.wf m = true → s.input.addr = s.output.addr →
    (∀ i, i < s.nbytes → Memory.read m (s.input.addr.toNat + i) = Memory.read s.mem (s.input.addr.toNat + i)) →
    (s.input.addr.toNat + s.nbytes ≤ outAddr.toNat ∨ outAddr.toNat + s.nbytes ≤ s.input.addr.toNat) →
    exec .process s = .next t → t.result = 0 →
    exec .process { s with output := { s.output with addr := outAddr }, mem := m } = .next u → u.result = 0 →
    u.hist = t.hist ∧
      ∀ i, i < s.nbytes → Memory.read u.mem (outAddr.toNat + i) = Memory.read t.mem (s.output.addr.toNat + i)

/-- 42 R97: processing `m + n` frames at once gives the history and the sample memory that processing the first `m` and
then the other `n` gives. -/
def Obligations.ProcessSplitsIntoConsecutiveProcesses : Prop :=
  ∀ (s t u v : State) (fmt : Format) (m n : Nat),
    Params.Legal s.maxChannels s.params → s.filterInv = true → Memory.wf s.mem = true →
    formatOfTag s.actFormat = some fmt → s.input.frames.toNat = m + n →
    exec .process s = .next t → t.result = 0 →
    exec .process (s.withBuffers s.input.addr.toNat s.output.addr.toNat m) = .next u →
    exec .process (u.withBuffers (s.input.addr.toNat + m * s.actChannels.toNat * fmt.bytes)
      (s.output.addr.toNat + m * s.actChannels.toNat * fmt.bytes) n) = .next v →
    u.result = 0 ∧ v.result = 0 ∧ v.hist = t.hist ∧ v.mem = t.mem

/-- 43 R119: zero frames is a valid shape; with both addresses at most `2^ADDR_WIDTH` PROCESS succeeds and changes
neither memory nor history, and an address above fails with BAD_RANGE. -/
def Obligations.ProcessOfZeroFramesTouchesNothing : Prop :=
  ∀ s : State, s.filterInv = true → s.ready = true → s.input.format = s.actFormat → s.output.format = s.actFormat →
    s.input.channels = s.actChannels → s.output.channels = s.actChannels → s.input.frames = 0 → s.output.frames = 0 →
    (s.input.addr.toNat ≤ 2 ^ s.params.addrWidth → s.output.addr.toNat ≤ 2 ^ s.params.addrWidth →
      exec .process s = .next { s with cmd := 3, result := 0 }) ∧
    (2 ^ s.params.addrWidth < s.input.addr.toNat ∨ 2 ^ s.params.addrWidth < s.output.addr.toNat →
      exec .process s = .next { s with cmd := 3, result := 0x0C01 })

/-- 43 R120: what PROCESS leaves alone, sample memory outside the output buffer included, and that it does not read the
staging registers. -/
def Obligations.ProcessFrame : Prop :=
  ∀ s t : State, Memory.wf s.mem = true → exec .process s = .next t →
    t = { s with cmd := 3, result := t.result, hist := t.hist, mem := t.mem } ∧
    (∀ c, s.actChannels.toNat ≤ c → t.slot c = s.slot c) ∧
    (∀ a, a < s.output.addr.toNat ∨ s.output.addr.toNat + s.nbytes ≤ a → Memory.read t.mem a = Memory.read s.mem a) ∧
    ∀ k : Configuration, exec .process { s with cfg := k } = .next { t with cfg := k }

/-- 10_state R11, 20_memory R42: the staging registers have no retroactive effect on PSAMPLE, CLEAR and LATENCY. -/
def Obligations.StagingHasNoRetroactiveEffect : Prop :=
  ∀ (s t : State) (k : Configuration),
    (exec .psample s = .next t → exec .psample { s with cfg := k } = .next { t with cfg := k }) ∧
    (exec .clear s = .next t → exec .clear { s with cfg := k } = .next { t with cfg := k }) ∧
    (exec .latency s = .next t → exec .latency { s with cfg := k } = .next { t with cfg := k })

/-! ## Sample memory -/

/-- 20_memory R32: little-endian reads and writes of `n` bytes; a write leaves every other byte as it was. -/
def Obligations.SamplesAreLittleEndian : Prop :=
  (∀ (m : List Host.Cell) (a n : Nat),
    Memory.load m a n = ∑ i ∈ Finset.range n, (Memory.read m (a + i)).toNat * 2 ^ (8 * i)) ∧
  (∀ (m : List Host.Cell) (a n v : Nat), Memory.wf m = true →
    (∀ i, i < n → (Memory.read (Memory.store m a n v) (a + i)).toNat = v / 2 ^ (8 * i) % 256) ∧
    (∀ j, j < a ∨ a + n ≤ j → Memory.read (Memory.store m a n v) j = Memory.read m j))

/-- 20_memory R36: a buffer is admitted exactly when it ends at or below `2^ADDR_WIDTH` and every one of its addresses is
in the set. -/
def Obligations.AdmittedMeansEveryAddressIsInTheSet : Prop :=
  ∀ (addrWidth : Nat) (regions : List Region) (base nbytes : Nat),
    admitted addrWidth regions base nbytes = true ↔
      base + nbytes ≤ 2 ^ addrWidth ∧ WithinRegions regions base (base + nbytes)

/-! ## Arithmetic -/

/-- 40_numerics R60, and R65 for the narrowing: rounding to binary64 and to binary32 is to the nearest value of the
format, subnormals included, a tie going to the even pattern; overflow begins where the nearest would be `2^1024` or
`2^128`.  A quantum is `2^-1074` or `2^-149`, so `2^925` of the one make one of the other. -/
def Obligations.RoundingIsToNearestEven : Prop :=
  (∀ num den p : Nat, 0 < den →
    (round64 num den = infBits ↔ den * ((2 ^ 54 - 1) * 2 ^ 2044) ≤ num) ∧
    (round64 num den < infBits → p < infBits → p ≠ round64 num den →
      distanceTo 52 num den (round64 num den) ≤ distanceTo 52 num den p ∧
      (distanceTo 52 num den (round64 num den) = distanceTo 52 num den p → round64 num den % 2 = 0))) ∧
  (∀ num den p : Nat, 0 < den →
    (round32 num den = infBits32 ↔ den * ((2 ^ 25 - 1) * 2 ^ 252) ≤ num) ∧
    (round32 num den < infBits32 → p < infBits32 → p ≠ round32 num den →
      distanceTo 23 num den (round32 num den) ≤ distanceTo 23 num den p ∧
      (distanceTo 23 num den (round32 num den) = distanceTo 23 num den p → round32 num den % 2 = 0))) ∧
  (∀ v : F64, isFinite v = true → f32OfF64 v = pack32 (signOf v) (round32 (quanta v) (2 ^ 925))) ∧
  (∀ v : F64, isInf v = true → f32OfF64 v = pack32 (signOf v) infBits32) ∧
  (∀ v : F64, isNaN v = true → f32OfF64 v = 0x7FC00000) ∧
  ∀ v : F64, encodeSample v .float32 = (f32OfF64 v).toNat

/-- 40_numerics R61: the sum and the difference are the exact ones, rounded, with the rules for zeros and for two
opposite infinities.  That `+0` plus `+0` is `+0` is IEEE 754's and not the rule's own words (log 15). -/
def Obligations.AdditionRoundsTheExactSum : Prop :=
  (∀ a b : F64, isFinite a = true → isFinite b = true → signedQuanta a + signedQuanta b ≠ 0 →
    fadd a b = pack (decide (signedQuanta a + signedQuanta b < 0))
      (round64 (signedQuanta a + signedQuanta b).natAbs 1)) ∧
  (∀ a : F64, isFinite a = true → isZero a = false → fadd a (fneg a) = 0) ∧
  fadd 0 0x8000000000000000 = 0 ∧ fadd 0x8000000000000000 0 = 0 ∧ fadd 0 0 = 0 ∧
  fadd 0x8000000000000000 0x8000000000000000 = 0x8000000000000000 ∧
  (∀ a b : F64, isInf a = true → isInf b = true → signOf a ≠ signOf b → fadd a b = nan64) ∧
  (∀ a b : F64, fsub a b = fadd a (fneg b))

/-- 40_numerics R62: the exact product, rounded; the sign is the exclusive-or, also of zeros and infinities; `0 * inf` is
a NaN; a power of two that neither overflows nor becomes subnormal is exact. -/
def Obligations.MultiplicationRoundsTheExactProduct : Prop :=
  (∀ a b : F64, isFinite a = true → isFinite b = true →
    fmul a b = pack (signOf a != signOf b) (round64 (quanta a * quanta b) (2 ^ 1074))) ∧
  (∀ a b : F64, isInf (fmul a b) = true ∨ isZero (fmul a b) = true →
    signOf (fmul a b) = (signOf a != signOf b)) ∧
  (∀ a b : F64, isZero a = true → isInf b = true → fmul a b = nan64 ∧ fmul b a = nan64) ∧
  (∀ (a b : F64) (k : Nat), isFinite a = true → isFinite b = true → quanta b = 2 ^ k →
    (quanta a = 0 ∨ 2 ^ 52 * 2 ^ 1074 ≤ quanta a * quanta b) → isFinite (fmul a b) = true →
    quanta (fmul a b) * 2 ^ 1074 = quanta a * quanta b)

/-- 40_numerics R63: the exact quotient, rounded, and its rules for zeros, infinities and equal operands. -/
def Obligations.DivisionRoundsTheExactQuotient : Prop :=
  (∀ a b : F64, isFinite a = true → isFinite b = true → isZero b = false →
    fdiv a b = pack (signOf a != signOf b) (round64 (quanta a * 2 ^ 1074) (quanta b))) ∧
  (∀ a b : F64, isFinite a = true → isZero a = false → isZero b = true →
    fdiv a b = pack (signOf a != signOf b) infBits) ∧
  (∀ a b : F64, isZero a = true → isZero b = true → fdiv a b = nan64) ∧
  (∀ a b : F64, isInf a = true → isInf b = true → fdiv a b = nan64) ∧
  (∀ a b : F64, isFinite a = true → isInf b = true → fdiv a b = pack (signOf a != signOf b) 0) ∧
  (∀ a : F64, isFinite a = true → isZero a = false → fdiv a a = 0x3FF0000000000000)

/-- 40_numerics R64: the square root lies between the midpoints on either side of the result, so the result is the
nearest value; with the rules for zeros, infinities, negative operands. -/
def Obligations.SquareRootIsNearest : Prop :=
  (∀ a : F64, isFinite a = true → isZero a = false → signOf a = false →
    let p := absBits (fsqrt a)
    fsqrt a = pack false p ∧ 0 < p ∧ p + 1 < infBits ∧
    (quantaOfBits 52 (p - 1) + quantaOfBits 52 p) ^ 2 ≤ 4 * (quanta a * 2 ^ 1074) ∧
    4 * (quanta a * 2 ^ 1074) ≤ (quantaOfBits 52 p + quantaOfBits 52 (p + 1)) ^ 2) ∧
  fsqrt 0 = 0 ∧ fsqrt 0x8000000000000000 = 0x8000000000000000 ∧ fsqrt 0x7FF0000000000000 = 0x7FF0000000000000 ∧
  (∀ a : F64, signOf a = true → isZero a = false → fsqrt a = nan64)

/-- 40_numerics R65: the comparisons order all values that are no NaN as numbers, the infinities beyond every finite
value, hold both zeros equal, and are false on a NaN. -/
def Obligations.ComparisonsOrderValues : Prop :=
  (∀ a b : F64, isNaN a = false → isNaN b = false →
    (flt a b = true ↔ signedQuanta a < signedQuanta b) ∧ (fle a b = true ↔ signedQuanta a ≤ signedQuanta b) ∧
    (fgt a b = true ↔ signedQuanta b < signedQuanta a) ∧ (fge a b = true ↔ signedQuanta b ≤ signedQuanta a) ∧
    (feq a b = true ↔ signedQuanta a = signedQuanta b)) ∧
  (∀ a : F64, isFinite a = true → -(2 : Int) ^ 2098 < signedQuanta a ∧ signedQuanta a < 2 ^ 2098) ∧
  signedQuanta 0x7FF0000000000000 = 2 ^ 2098 ∧ signedQuanta 0xFFF0000000000000 = -(2 : Int) ^ 2098 ∧
  (∀ a b : F64, isNaN a = true ∨ isNaN b = true →
    flt a b = false ∧ fle a b = false ∧ fgt a b = false ∧ fge a b = false ∧ feq a b = false) ∧
  feq 0 0x8000000000000000 = true

/-- 40_numerics R67: an operation that has a NaN operand, or whose result is a NaN, gives the canonical NaN.  The last
four clauses, on an infinity with an operand other than its opposite, a zero or an infinite divisor, are IEEE 754's and not the rules' own words (log 15). -/
def Obligations.NanResultsAreCanonicalAndInfinitiesStay : Prop :=
  (∀ a b : F64, isNaN a = true ∨ isNaN b = true → fadd a b = nan64 ∧ fsub a b = nan64 ∧ fmul a b = nan64 ∧ fdiv a b = nan64) ∧
  (∀ a : F64, isNaN a = true → fneg a = nan64 ∧ fsqrt a = nan64 ∧ f32OfF64 a = 0x7FC00000) ∧
  (∀ a b : F64, (isNaN (fadd a b) = true → fadd a b = nan64) ∧ (isNaN (fsub a b) = true → fsub a b = nan64) ∧
    (isNaN (fmul a b) = true → fmul a b = nan64) ∧ (isNaN (fdiv a b) = true → fdiv a b = nan64) ∧
    (isNaN (fsqrt a) = true → fsqrt a = nan64) ∧ (isNaN (fneg a) = true → fneg a = nan64)) ∧
  (∀ p : F32, isNaN (f64OfF32 p) = true → f64OfF32 p = nan64) ∧
  (∀ a b : F64, isInf a = true → isFinite b = true → fadd a b = a ∧ fadd b a = a) ∧
  (∀ a b : F64, isInf a = true → isInf b = true → signOf a = signOf b → fadd a b = a) ∧
  (∀ a b : F64, isInf a = true → isNaN b = false → isZero b = false →
    fmul a b = pack (signOf a != signOf b) infBits ∧ fmul b a = pack (signOf a != signOf b) infBits) ∧
  (∀ a b : F64, isInf a = true → isFinite b = true → fdiv a b = pack (signOf a != signOf b) infBits)

/-! ## The sample formats -/

/-- 40_numerics R72: an integer sample decodes, exactly, to its integer over `2^(N-1)`; a Float32 sample to its own value,
a NaN to the canonical NaN, an infinity to the infinity of its sign.  Silence decodes to `+0.0`.  Then R65's `ofNat` of
every sample rate and `ofInt` of every integer sample: they never round. -/
def Obligations.DecodingIsExact : Prop :=
  (∀ raw : Nat, raw < 2 ^ 8 →
    isFinite (decodeSample raw .unsigned8) = true ∧
    signedQuanta (decodeSample raw .unsigned8) * 2 ^ 7 = ((raw : Int) - 128) * 2 ^ 1074) ∧
  (∀ (fmt : Format) (raw : Nat), fmt ≠ .unsigned8 → fmt ≠ .float32 → raw < 256 ^ fmt.bytes →
    isFinite (decodeSample raw fmt) = true ∧
    signedQuanta (decodeSample raw fmt) * 2 ^ (8 * fmt.bytes - 1) = signExtend (8 * fmt.bytes) raw * 2 ^ 1074) ∧
  (∀ raw : Nat, raw < 2 ^ 32 →
    (raw % 2 ^ 31 < 0x7F800000 → isFinite (decodeSample raw .float32) = true ∧
      signOf (decodeSample raw .float32) = decide (2 ^ 31 ≤ raw) ∧
      quanta (decodeSample raw .float32) = quantaOfBits 23 (raw % 2 ^ 31) * 2 ^ 925) ∧
    (raw % 2 ^ 31 = 0x7F800000 → decodeSample raw .float32 = pack (decide (2 ^ 31 ≤ raw)) infBits) ∧
    (0x7F800000 < raw % 2 ^ 31 → decodeSample raw .float32 = nan64)) ∧
  decodeSample 128 .unsigned8 = 0 ∧ decodeSample 0 .signed16 = 0 ∧ decodeSample 0 .signed24 = 0 ∧
  decodeSample 0 .signed32 = 0 ∧
  (∀ n : Nat, n ≤ 2 ^ 32 - 1 → isFinite (f64OfNat n) = true ∧ signedQuanta (f64OfNat n) = (n : Int) * 2 ^ 1074) ∧
  (∀ i : Int, -(2 : Int) ^ 31 ≤ i → i ≤ 2 ^ 31 →
    isFinite (f64OfInt i) = true ∧ signedQuanta (f64OfInt i) = i * 2 ^ 1074)

/-- 40_numerics R73: the quantiser gives the integer `q` nearest to `v * 2^(n-1)`, a tie to the even one, clamped to the
`n`-bit range; an infinity gives the end of its sign, a NaN gives 0. -/
def Obligations.QuantizerClampsTheNearestInteger : Prop :=
  ∀ (n : Nat) (v : F64), n = 8 ∨ n = 16 ∨ n = 24 ∨ n = 32 →
    (isNaN v = true → quantize n v = 0) ∧
    (isInf v = true → quantize n v = if signOf v then -(2 : Int) ^ (n - 1) else (2 : Int) ^ (n - 1) - 1) ∧
    ∀ q : Int, isFinite v = true →
      2 * |q * 2 ^ 1074 - signedQuanta v * 2 ^ (n - 1)| ≤ 2 ^ 1074 →
      (2 * |q * 2 ^ 1074 - signedQuanta v * 2 ^ (n - 1)| = 2 ^ 1074 → q % 2 = 0) →
      quantize n v = min ((2 : Int) ^ (n - 1) - 1) (max (-(2 : Int) ^ (n - 1)) q)

/-- 40_numerics R75 item 1: every raw sample but a Float32 NaN decodes and encodes back to itself; a Float32 NaN gives
`0x7FC00000`. -/
def Obligations.RawSamplesRoundTrip : Prop :=
  (∀ (fmt : Format) (raw : Nat), raw < 256 ^ fmt.bytes →
    (fmt = .float32 → raw % 2 ^ 31 ≤ 0x7F800000) → encodeSample (decodeSample raw fmt) fmt = raw) ∧
  (∀ raw : Nat, raw < 2 ^ 32 → 0x7F800000 < raw % 2 ^ 31 →
    encodeSample (decodeSample raw .float32) .float32 = 0x7FC00000)

/-- 40_numerics R75 item 2: values of at least 1.0 and at most -1.0, infinities included, encode to the ends of an
integer format; a NaN encodes to silence (R73). -/
def Obligations.IntegerEncodingSaturates : Prop :=
  (∀ v : F64, fge v 0x3FF0000000000000 = true →
    encodeSample v .unsigned8 = 0xFF ∧ encodeSample v .signed16 = 0x7FFF ∧ encodeSample v .signed24 = 0x7FFFFF ∧
    encodeSample v .signed32 = 0x7FFFFFFF) ∧
  (∀ v : F64, fle v 0xBFF0000000000000 = true →
    encodeSample v .unsigned8 = 0 ∧ encodeSample v .signed16 = 0x8000 ∧ encodeSample v .signed24 = 0x800000 ∧
    encodeSample v .signed32 = 0x80000000) ∧
  (∀ v : F64, isNaN v = true →
    encodeSample v .unsigned8 = 0x80 ∧ encodeSample v .signed16 = 0 ∧ encodeSample v .signed24 = 0 ∧
    encodeSample v .signed32 = 0)

/-- 40_numerics R75 item 3: encoding to an integer format never inverts a sign. -/
def Obligations.EncodingNeverInvertsSign : Prop :=
  ∀ (fmt : Format) (v : F64), fmt ≠ .float32 →
    (fge v 0 = true → fge (decodeSample (encodeSample v fmt) fmt) 0 = true) ∧
    (fle v 0 = true → fle (decodeSample (encodeSample v fmt) fmt) 0 = true)

/-- 40_numerics R75 item 4: encoding keeps the order of values, in every format. -/
def Obligations.EncodingIsMonotonic : Prop :=
  ∀ v w : F64, fle v w = true →
    encodeSample v .unsigned8 ≤ encodeSample w .unsigned8 ∧
    signExtend 16 (encodeSample v .signed16) ≤ signExtend 16 (encodeSample w .signed16) ∧
    signExtend 24 (encodeSample v .signed24) ≤ signExtend 24 (encodeSample w .signed24) ∧
    signExtend 32 (encodeSample v .signed32) ≤ signExtend 32 (encodeSample w .signed32) ∧
    fle (f64OfF32 (f32OfF64 v)) (f64OfF32 (f32OfF64 w)) = true

/-- 40_numerics R75 item 5: within the range of an integer format of `N` bits, decoding what was encoded is at most
`2^-N` away, in quanta `2^(1074 - N)`. -/
def Obligations.EncodingErrorIsHalfAStep : Prop :=
  ∀ (fmt : Format) (v : F64), fmt ≠ .float32 → isFinite v = true →
    -(2 : Int) ^ 1074 ≤ signedQuanta v →
    signedQuanta v ≤ ((2 : Int) ^ (8 * fmt.bytes - 1) - 1) * 2 ^ (1075 - 8 * fmt.bytes) →
    |signedQuanta (decodeSample (encodeSample v fmt) fmt) - signedQuanta v| ≤ 2 ^ (1074 - 8 * fmt.bytes)

/-- 20_memory R31, 30_encoding R49: the five format tags and their sample sizes; every other tag is invalid. -/
def Obligations.FormatTagsAndSampleSizes : Prop :=
  (formatOfTag 1).map Format.bytes = some 1 ∧ (formatOfTag 2).map Format.bytes = some 2 ∧
  (formatOfTag 3).map Format.bytes = some 3 ∧ (formatOfTag 4).map Format.bytes = some 4 ∧
  (formatOfTag 5).map Format.bytes = some 4 ∧
  formatOfTag 1 = some .unsigned8 ∧ formatOfTag 2 = some .signed16 ∧ formatOfTag 3 = some .signed24 ∧
  formatOfTag 4 = some .signed32 ∧ formatOfTag 5 = some .float32 ∧
  ∀ tag : Word, tag.toNat = 0 ∨ 6 ≤ tag.toNat → formatOfTag tag = none
end

