-- ==== Sys2Proof/Laws/Memory.lean ====
section
/-! SUPPORT. Sample memory: the canonical form is kept, and reads after writes. -/

namespace Sys2Proof.Machine

/-! ## The canonical form -/

theorem Memory.wfFrom_mono {m : List Host.Cell} {j k : Nat} (h : Memory.wfFrom k m = true) (hjk : j ≤ k) :
    Memory.wfFrom j m = true := by
  cases m with
  | nil => rfl
  | cons c m =>
    obtain ⟨x, b⟩ := c
    simp only [Memory.wfFrom, Bool.and_eq_true, decide_eq_true_eq] at h ⊢
    exact ⟨⟨by omega, h.1.2⟩, h.2⟩

theorem Memory.read_below {m : List Host.Cell} {k a : Nat} (h : Memory.wfFrom k m = true) (ha : a < k) :
    Memory.read m a = Memory.blank := by
  cases m with
  | nil => rfl
  | cons c m =>
    obtain ⟨x, b⟩ := c
    simp only [Memory.wfFrom, Bool.and_eq_true, decide_eq_true_eq] at h
    rw [Memory.read, if_neg (by omega), if_pos (by omega)]

theorem Memory.wfFrom_write {m : List Host.Cell} {k a : Nat} {v : Byte} (h : Memory.wfFrom k m = true) (ha : k ≤ a) :
    Memory.wfFrom k (Memory.write m a v) = true := by
  induction m generalizing k with
  | nil =>
    unfold Memory.write
    split
    · rfl
    · rename_i hv
      simp [Memory.wfFrom, ha, hv]
  | cons c m ih =>
    obtain ⟨x, b⟩ := c
    simp only [Memory.wfFrom, Bool.and_eq_true, decide_eq_true_eq] at h
    unfold Memory.write
    split
    · subst_vars
      split
      · exact Memory.wfFrom_mono h.2 (by omega)
      · rename_i hv
        simp [Memory.wfFrom, ha, hv, h.2]
    · split
      · split
        · simp only [Memory.wfFrom, Bool.and_eq_true, decide_eq_true_eq]
          exact h
        · rename_i hv
          simp only [Memory.wfFrom, Bool.and_eq_true, decide_eq_true_eq]
          exact ⟨⟨ha, hv⟩, ⟨by omega, h.1.2⟩, h.2⟩
      · simp only [Memory.wfFrom, Bool.and_eq_true, decide_eq_true_eq]
        exact ⟨h.1, ih h.2 (by omega)⟩

/-- Storing a byte keeps the canonical form. -/
theorem Memory.wf_write {m : List Host.Cell} (a : Nat) (v : Byte) (h : Memory.wf m = true) :
    Memory.wf (Memory.write m a v) = true :=
  Memory.wfFrom_write h (Nat.zero_le a)

/-- Storing a sample keeps the canonical form. -/
theorem Memory.wf_store {m : List Host.Cell} (a n v : Nat) (h : Memory.wf m = true) :
    Memory.wf (Memory.store m a n v) = true := by
  induction n generalizing m a v with
  | zero => exact h
  | succ n ih => exact ih _ _ (Memory.wf_write _ _ h)

/-! ## Reads after writes -/

theorem Memory.read_write_from {m : List Host.Cell} {k : Nat} (a j : Nat) (v : Byte)
    (h : Memory.wfFrom k m = true) :
    Memory.read (Memory.write m a v) j = if j = a then v else Memory.read m j := by
  induction m generalizing k with
  | nil =>
    by_cases hv : v = Memory.blank <;> by_cases hj : j = a <;> simp [Memory.write, Memory.read, hv, hj]
  | cons c m ih =>
    obtain ⟨x, b⟩ := c
    simp only [Memory.wfFrom, Bool.and_eq_true, decide_eq_true_eq] at h
    have below : ∀ i, i ≤ x → Memory.read m i = Memory.blank := fun i hi => Memory.read_below h.2 (by omega)
    unfold Memory.write
    by_cases hax : a = x
    · subst hax
      by_cases hv : v = Memory.blank
      · rw [if_pos rfl, if_pos hv]
        by_cases hj : j = a
        · rw [if_pos hj, hj, below a (Nat.le_refl a), hv]
        · rw [if_neg hj, Memory.read, if_neg hj]
          split
          · exact below j (by omega)
          · rfl
      · rw [if_pos rfl, if_neg hv]
        by_cases hj : j = a <;> simp [Memory.read, hj]
    · rw [if_neg hax]
      by_cases hlt : a < x
      · rw [if_pos hlt]
        by_cases hv : v = Memory.blank
        · rw [if_pos hv]
          by_cases hj : j = a
          · rw [if_pos hj, hj, Memory.read, if_neg hax, if_pos hlt, hv]
          · rw [if_neg hj]
        · rw [if_neg hv]
          by_cases hj : j = a
          · simp [Memory.read, hj]
          · rw [if_neg hj, Memory.read, if_neg hj]
            split
            · rw [Memory.read, if_neg (by omega), if_pos (by omega)]
            · rfl
      · rw [if_neg hlt]
        by_cases hjx : j = x
        · rw [Memory.read, if_pos hjx, if_neg (by omega), Memory.read, if_pos hjx]
        · by_cases hjl : j < x
          · rw [Memory.read, if_neg hjx, if_pos hjl, if_neg (by omega), Memory.read, if_neg hjx, if_pos hjl]
          · rw [Memory.read, if_neg hjx, if_neg hjl, ih h.2]
            split
            · rfl
            · rw [Memory.read, if_neg hjx, if_neg hjl]

/-- A byte read after a byte written: the byte written at its address, the old byte elsewhere. -/
theorem Memory.read_write {m : List Host.Cell} (a j : Nat) (v : Byte) (h : Memory.wf m = true) :
    Memory.read (Memory.write m a v) j = if j = a then v else Memory.read m j :=
  Memory.read_write_from a j v h

/-- A sample stored leaves every byte outside it as it was. -/
theorem Memory.read_store_outside {m : List Host.Cell} (a n v j : Nat) (h : Memory.wf m = true)
    (hj : j < a ∨ a + n ≤ j) : Memory.read (Memory.store m a n v) j = Memory.read m j := by
  induction n generalizing m a v with
  | zero => rfl
  | succ n ih =>
    rw [Memory.store, ih _ _ (Memory.wf_write _ _ h) (by omega), Memory.read_write _ _ _ h, if_neg (by omega)]

/-- A sample depends on its own bytes only. -/
theorem Memory.load_congr {m m' : List Host.Cell} (a n : Nat)
    (h : ∀ j, a ≤ j → j < a + n → Memory.read m j = Memory.read m' j) :
    Memory.load m a n = Memory.load m' a n := by
  induction n generalizing a with
  | zero => rfl
  | succ n ih =>
    rw [Memory.load, Memory.load, h a (Nat.le_refl a) (by omega), ih (a + 1) (fun j h1 h2 => h j (by omega) (by omega))]

/-- A sample read where it was stored is the low `8n` bits of the value. -/
theorem Memory.load_store_same {m : List Host.Cell} (a n v : Nat) (h : Memory.wf m = true) :
    Memory.load (Memory.store m a n v) a n = v % 256 ^ n := by
  induction n generalizing m a v with
  | zero => simp [Memory.load, Nat.mod_one]
  | succ n ih =>
    rw [Memory.load, Memory.store, Memory.read_store_outside _ _ _ _ (Memory.wf_write _ _ h) (by omega),
      Memory.read_write _ _ _ h, if_pos rfl, ih _ _ (Memory.wf_write _ _ h)]
    rw [Nat.pow_succ, Nat.mul_comm (256 ^ n) 256, Nat.mod_mul]
    simp

/-- A sample read elsewhere is as before. -/
theorem Memory.load_store_disjoint {m : List Host.Cell} (a n v b k : Nat) (h : Memory.wf m = true)
    (hd : b + k ≤ a ∨ a + n ≤ b) : Memory.load (Memory.store m a n v) b k = Memory.load m b k :=
  Memory.load_congr b k (fun j h1 h2 => Memory.read_store_outside a n v j h (by omega))

end Sys2Proof.Machine
end

