-- ==== Sys2Proof/Laws/State.lean ====
section
/-! SUPPORT. What each named update does to each field of the state. -/

namespace Sys2Proof.Machine

/-! ## setCfg -/

@[simp] theorem State.setCfg_cfg (s : State) (v : Configuration) : (s.setCfg v).cfg = v := rfl
@[simp] theorem State.setCfg_cmd (s : State) (v : Configuration) : (s.setCfg v).cmd = s.cmd := rfl
@[simp] theorem State.setCfg_result (s : State) (v : Configuration) : (s.setCfg v).result = s.result := rfl
@[simp] theorem State.setCfg_status (s : State) (v : Configuration) : (s.setCfg v).status = s.status := rfl
@[simp] theorem State.setCfg_retval (s : State) (v : Configuration) : (s.setCfg v).retval = s.retval := rfl
@[simp] theorem State.setCfg_psChannel (s : State) (v : Configuration) : (s.setCfg v).psChannel = s.psChannel := rfl
@[simp] theorem State.setCfg_psX (s : State) (v : Configuration) : (s.setCfg v).psX = s.psX := rfl
@[simp] theorem State.setCfg_psY (s : State) (v : Configuration) : (s.setCfg v).psY = s.psY := rfl
@[simp] theorem State.setCfg_input (s : State) (v : Configuration) : (s.setCfg v).input = s.input := rfl
@[simp] theorem State.setCfg_output (s : State) (v : Configuration) : (s.setCfg v).output = s.output := rfl
@[simp] theorem State.setCfg_actFormat (s : State) (v : Configuration) : (s.setCfg v).actFormat = s.actFormat := rfl
@[simp] theorem State.setCfg_actChannels (s : State) (v : Configuration) : (s.setCfg v).actChannels = s.actChannels := rfl
@[simp] theorem State.setCfg_coef (s : State) (v : Configuration) : (s.setCfg v).coef = s.coef := rfl
@[simp] theorem State.setCfg_dsn (s : State) (v : Configuration) : (s.setCfg v).dsn = s.dsn := rfl
@[simp] theorem State.setCfg_hist (s : State) (v : Configuration) : (s.setCfg v).hist = s.hist := rfl
@[simp] theorem State.setCfg_mem (s : State) (v : Configuration) : (s.setCfg v).mem = s.mem := rfl
@[simp] theorem State.setCfg_params (s : State) (v : Configuration) : (s.setCfg v).params = s.params := rfl
@[simp] theorem State.setCfg_script (s : State) (v : Configuration) : (s.setCfg v).script = s.script := rfl
@[simp] theorem State.setCfg_returned (s : State) (v : Configuration) : (s.setCfg v).returned = s.returned := rfl

/-! ## setCmd -/

@[simp] theorem State.setCmd_cfg (s : State) (v : Word) : (s.setCmd v).cfg = s.cfg := rfl
@[simp] theorem State.setCmd_cmd (s : State) (v : Word) : (s.setCmd v).cmd = v := rfl
@[simp] theorem State.setCmd_result (s : State) (v : Word) : (s.setCmd v).result = s.result := rfl
@[simp] theorem State.setCmd_status (s : State) (v : Word) : (s.setCmd v).status = s.status := rfl
@[simp] theorem State.setCmd_retval (s : State) (v : Word) : (s.setCmd v).retval = s.retval := rfl
@[simp] theorem State.setCmd_psChannel (s : State) (v : Word) : (s.setCmd v).psChannel = s.psChannel := rfl
@[simp] theorem State.setCmd_psX (s : State) (v : Word) : (s.setCmd v).psX = s.psX := rfl
@[simp] theorem State.setCmd_psY (s : State) (v : Word) : (s.setCmd v).psY = s.psY := rfl
@[simp] theorem State.setCmd_input (s : State) (v : Word) : (s.setCmd v).input = s.input := rfl
@[simp] theorem State.setCmd_output (s : State) (v : Word) : (s.setCmd v).output = s.output := rfl
@[simp] theorem State.setCmd_actFormat (s : State) (v : Word) : (s.setCmd v).actFormat = s.actFormat := rfl
@[simp] theorem State.setCmd_actChannels (s : State) (v : Word) : (s.setCmd v).actChannels = s.actChannels := rfl
@[simp] theorem State.setCmd_coef (s : State) (v : Word) : (s.setCmd v).coef = s.coef := rfl
@[simp] theorem State.setCmd_dsn (s : State) (v : Word) : (s.setCmd v).dsn = s.dsn := rfl
@[simp] theorem State.setCmd_hist (s : State) (v : Word) : (s.setCmd v).hist = s.hist := rfl
@[simp] theorem State.setCmd_mem (s : State) (v : Word) : (s.setCmd v).mem = s.mem := rfl
@[simp] theorem State.setCmd_params (s : State) (v : Word) : (s.setCmd v).params = s.params := rfl
@[simp] theorem State.setCmd_script (s : State) (v : Word) : (s.setCmd v).script = s.script := rfl
@[simp] theorem State.setCmd_returned (s : State) (v : Word) : (s.setCmd v).returned = s.returned := rfl

/-! ## setResult -/

@[simp] theorem State.setResult_cfg (s : State) (v : Word) : (s.setResult v).cfg = s.cfg := rfl
@[simp] theorem State.setResult_cmd (s : State) (v : Word) : (s.setResult v).cmd = s.cmd := rfl
@[simp] theorem State.setResult_result (s : State) (v : Word) : (s.setResult v).result = v := rfl
@[simp] theorem State.setResult_status (s : State) (v : Word) : (s.setResult v).status = s.status := rfl
@[simp] theorem State.setResult_retval (s : State) (v : Word) : (s.setResult v).retval = s.retval := rfl
@[simp] theorem State.setResult_psChannel (s : State) (v : Word) : (s.setResult v).psChannel = s.psChannel := rfl
@[simp] theorem State.setResult_psX (s : State) (v : Word) : (s.setResult v).psX = s.psX := rfl
@[simp] theorem State.setResult_psY (s : State) (v : Word) : (s.setResult v).psY = s.psY := rfl
@[simp] theorem State.setResult_input (s : State) (v : Word) : (s.setResult v).input = s.input := rfl
@[simp] theorem State.setResult_output (s : State) (v : Word) : (s.setResult v).output = s.output := rfl
@[simp] theorem State.setResult_actFormat (s : State) (v : Word) : (s.setResult v).actFormat = s.actFormat := rfl
@[simp] theorem State.setResult_actChannels (s : State) (v : Word) : (s.setResult v).actChannels = s.actChannels := rfl
@[simp] theorem State.setResult_coef (s : State) (v : Word) : (s.setResult v).coef = s.coef := rfl
@[simp] theorem State.setResult_dsn (s : State) (v : Word) : (s.setResult v).dsn = s.dsn := rfl
@[simp] theorem State.setResult_hist (s : State) (v : Word) : (s.setResult v).hist = s.hist := rfl
@[simp] theorem State.setResult_mem (s : State) (v : Word) : (s.setResult v).mem = s.mem := rfl
@[simp] theorem State.setResult_params (s : State) (v : Word) : (s.setResult v).params = s.params := rfl
@[simp] theorem State.setResult_script (s : State) (v : Word) : (s.setResult v).script = s.script := rfl
@[simp] theorem State.setResult_returned (s : State) (v : Word) : (s.setResult v).returned = s.returned := rfl

/-! ## setStatus -/

@[simp] theorem State.setStatus_cfg (s : State) (v : Word) : (s.setStatus v).cfg = s.cfg := rfl
@[simp] theorem State.setStatus_cmd (s : State) (v : Word) : (s.setStatus v).cmd = s.cmd := rfl
@[simp] theorem State.setStatus_result (s : State) (v : Word) : (s.setStatus v).result = s.result := rfl
@[simp] theorem State.setStatus_status (s : State) (v : Word) : (s.setStatus v).status = v := rfl
@[simp] theorem State.setStatus_retval (s : State) (v : Word) : (s.setStatus v).retval = s.retval := rfl
@[simp] theorem State.setStatus_psChannel (s : State) (v : Word) : (s.setStatus v).psChannel = s.psChannel := rfl
@[simp] theorem State.setStatus_psX (s : State) (v : Word) : (s.setStatus v).psX = s.psX := rfl
@[simp] theorem State.setStatus_psY (s : State) (v : Word) : (s.setStatus v).psY = s.psY := rfl
@[simp] theorem State.setStatus_input (s : State) (v : Word) : (s.setStatus v).input = s.input := rfl
@[simp] theorem State.setStatus_output (s : State) (v : Word) : (s.setStatus v).output = s.output := rfl
@[simp] theorem State.setStatus_actFormat (s : State) (v : Word) : (s.setStatus v).actFormat = s.actFormat := rfl
@[simp] theorem State.setStatus_actChannels (s : State) (v : Word) : (s.setStatus v).actChannels = s.actChannels := rfl
@[simp] theorem State.setStatus_coef (s : State) (v : Word) : (s.setStatus v).coef = s.coef := rfl
@[simp] theorem State.setStatus_dsn (s : State) (v : Word) : (s.setStatus v).dsn = s.dsn := rfl
@[simp] theorem State.setStatus_hist (s : State) (v : Word) : (s.setStatus v).hist = s.hist := rfl
@[simp] theorem State.setStatus_mem (s : State) (v : Word) : (s.setStatus v).mem = s.mem := rfl
@[simp] theorem State.setStatus_params (s : State) (v : Word) : (s.setStatus v).params = s.params := rfl
@[simp] theorem State.setStatus_script (s : State) (v : Word) : (s.setStatus v).script = s.script := rfl
@[simp] theorem State.setStatus_returned (s : State) (v : Word) : (s.setStatus v).returned = s.returned := rfl

/-! ## setRetval -/

@[simp] theorem State.setRetval_cfg (s : State) (v : Word) : (s.setRetval v).cfg = s.cfg := rfl
@[simp] theorem State.setRetval_cmd (s : State) (v : Word) : (s.setRetval v).cmd = s.cmd := rfl
@[simp] theorem State.setRetval_result (s : State) (v : Word) : (s.setRetval v).result = s.result := rfl
@[simp] theorem State.setRetval_status (s : State) (v : Word) : (s.setRetval v).status = s.status := rfl
@[simp] theorem State.setRetval_retval (s : State) (v : Word) : (s.setRetval v).retval = v := rfl
@[simp] theorem State.setRetval_psChannel (s : State) (v : Word) : (s.setRetval v).psChannel = s.psChannel := rfl
@[simp] theorem State.setRetval_psX (s : State) (v : Word) : (s.setRetval v).psX = s.psX := rfl
@[simp] theorem State.setRetval_psY (s : State) (v : Word) : (s.setRetval v).psY = s.psY := rfl
@[simp] theorem State.setRetval_input (s : State) (v : Word) : (s.setRetval v).input = s.input := rfl
@[simp] theorem State.setRetval_output (s : State) (v : Word) : (s.setRetval v).output = s.output := rfl
@[simp] theorem State.setRetval_actFormat (s : State) (v : Word) : (s.setRetval v).actFormat = s.actFormat := rfl
@[simp] theorem State.setRetval_actChannels (s : State) (v : Word) : (s.setRetval v).actChannels = s.actChannels := rfl
@[simp] theorem State.setRetval_coef (s : State) (v : Word) : (s.setRetval v).coef = s.coef := rfl
@[simp] theorem State.setRetval_dsn (s : State) (v : Word) : (s.setRetval v).dsn = s.dsn := rfl
@[simp] theorem State.setRetval_hist (s : State) (v : Word) : (s.setRetval v).hist = s.hist := rfl
@[simp] theorem State.setRetval_mem (s : State) (v : Word) : (s.setRetval v).mem = s.mem := rfl
@[simp] theorem State.setRetval_params (s : State) (v : Word) : (s.setRetval v).params = s.params := rfl
@[simp] theorem State.setRetval_script (s : State) (v : Word) : (s.setRetval v).script = s.script := rfl
@[simp] theorem State.setRetval_returned (s : State) (v : Word) : (s.setRetval v).returned = s.returned := rfl

/-! ## setPsChannel -/

@[simp] theorem State.setPsChannel_cfg (s : State) (v : Word) : (s.setPsChannel v).cfg = s.cfg := rfl
@[simp] theorem State.setPsChannel_cmd (s : State) (v : Word) : (s.setPsChannel v).cmd = s.cmd := rfl
@[simp] theorem State.setPsChannel_result (s : State) (v : Word) : (s.setPsChannel v).result = s.result := rfl
@[simp] theorem State.setPsChannel_status (s : State) (v : Word) : (s.setPsChannel v).status = s.status := rfl
@[simp] theorem State.setPsChannel_retval (s : State) (v : Word) : (s.setPsChannel v).retval = s.retval := rfl
@[simp] theorem State.setPsChannel_psChannel (s : State) (v : Word) : (s.setPsChannel v).psChannel = v := rfl
@[simp] theorem State.setPsChannel_psX (s : State) (v : Word) : (s.setPsChannel v).psX = s.psX := rfl
@[simp] theorem State.setPsChannel_psY (s : State) (v : Word) : (s.setPsChannel v).psY = s.psY := rfl
@[simp] theorem State.setPsChannel_input (s : State) (v : Word) : (s.setPsChannel v).input = s.input := rfl
@[simp] theorem State.setPsChannel_output (s : State) (v : Word) : (s.setPsChannel v).output = s.output := rfl
@[simp] theorem State.setPsChannel_actFormat (s : State) (v : Word) : (s.setPsChannel v).actFormat = s.actFormat := rfl
@[simp] theorem State.setPsChannel_actChannels (s : State) (v : Word) : (s.setPsChannel v).actChannels = s.actChannels := rfl
@[simp] theorem State.setPsChannel_coef (s : State) (v : Word) : (s.setPsChannel v).coef = s.coef := rfl
@[simp] theorem State.setPsChannel_dsn (s : State) (v : Word) : (s.setPsChannel v).dsn = s.dsn := rfl
@[simp] theorem State.setPsChannel_hist (s : State) (v : Word) : (s.setPsChannel v).hist = s.hist := rfl
@[simp] theorem State.setPsChannel_mem (s : State) (v : Word) : (s.setPsChannel v).mem = s.mem := rfl
@[simp] theorem State.setPsChannel_params (s : State) (v : Word) : (s.setPsChannel v).params = s.params := rfl
@[simp] theorem State.setPsChannel_script (s : State) (v : Word) : (s.setPsChannel v).script = s.script := rfl
@[simp] theorem State.setPsChannel_returned (s : State) (v : Word) : (s.setPsChannel v).returned = s.returned := rfl

/-! ## setPsX -/

@[simp] theorem State.setPsX_cfg (s : State) (v : F64) : (s.setPsX v).cfg = s.cfg := rfl
@[simp] theorem State.setPsX_cmd (s : State) (v : F64) : (s.setPsX v).cmd = s.cmd := rfl
@[simp] theorem State.setPsX_result (s : State) (v : F64) : (s.setPsX v).result = s.result := rfl
@[simp] theorem State.setPsX_status (s : State) (v : F64) : (s.setPsX v).status = s.status := rfl
@[simp] theorem State.setPsX_retval (s : State) (v : F64) : (s.setPsX v).retval = s.retval := rfl
@[simp] theorem State.setPsX_psChannel (s : State) (v : F64) : (s.setPsX v).psChannel = s.psChannel := rfl
@[simp] theorem State.setPsX_psX (s : State) (v : F64) : (s.setPsX v).psX = v := rfl
@[simp] theorem State.setPsX_psY (s : State) (v : F64) : (s.setPsX v).psY = s.psY := rfl
@[simp] theorem State.setPsX_input (s : State) (v : F64) : (s.setPsX v).input = s.input := rfl
@[simp] theorem State.setPsX_output (s : State) (v : F64) : (s.setPsX v).output = s.output := rfl
@[simp] theorem State.setPsX_actFormat (s : State) (v : F64) : (s.setPsX v).actFormat = s.actFormat := rfl
@[simp] theorem State.setPsX_actChannels (s : State) (v : F64) : (s.setPsX v).actChannels = s.actChannels := rfl
@[simp] theorem State.setPsX_coef (s : State) (v : F64) : (s.setPsX v).coef = s.coef := rfl
@[simp] theorem State.setPsX_dsn (s : State) (v : F64) : (s.setPsX v).dsn = s.dsn := rfl
@[simp] theorem State.setPsX_hist (s : State) (v : F64) : (s.setPsX v).hist = s.hist := rfl
@[simp] theorem State.setPsX_mem (s : State) (v : F64) : (s.setPsX v).mem = s.mem := rfl
@[simp] theorem State.setPsX_params (s : State) (v : F64) : (s.setPsX v).params = s.params := rfl
@[simp] theorem State.setPsX_script (s : State) (v : F64) : (s.setPsX v).script = s.script := rfl
@[simp] theorem State.setPsX_returned (s : State) (v : F64) : (s.setPsX v).returned = s.returned := rfl

/-! ## setPsY -/

@[simp] theorem State.setPsY_cfg (s : State) (v : F64) : (s.setPsY v).cfg = s.cfg := rfl
@[simp] theorem State.setPsY_cmd (s : State) (v : F64) : (s.setPsY v).cmd = s.cmd := rfl
@[simp] theorem State.setPsY_result (s : State) (v : F64) : (s.setPsY v).result = s.result := rfl
@[simp] theorem State.setPsY_status (s : State) (v : F64) : (s.setPsY v).status = s.status := rfl
@[simp] theorem State.setPsY_retval (s : State) (v : F64) : (s.setPsY v).retval = s.retval := rfl
@[simp] theorem State.setPsY_psChannel (s : State) (v : F64) : (s.setPsY v).psChannel = s.psChannel := rfl
@[simp] theorem State.setPsY_psX (s : State) (v : F64) : (s.setPsY v).psX = s.psX := rfl
@[simp] theorem State.setPsY_psY (s : State) (v : F64) : (s.setPsY v).psY = v := rfl
@[simp] theorem State.setPsY_input (s : State) (v : F64) : (s.setPsY v).input = s.input := rfl
@[simp] theorem State.setPsY_output (s : State) (v : F64) : (s.setPsY v).output = s.output := rfl
@[simp] theorem State.setPsY_actFormat (s : State) (v : F64) : (s.setPsY v).actFormat = s.actFormat := rfl
@[simp] theorem State.setPsY_actChannels (s : State) (v : F64) : (s.setPsY v).actChannels = s.actChannels := rfl
@[simp] theorem State.setPsY_coef (s : State) (v : F64) : (s.setPsY v).coef = s.coef := rfl
@[simp] theorem State.setPsY_dsn (s : State) (v : F64) : (s.setPsY v).dsn = s.dsn := rfl
@[simp] theorem State.setPsY_hist (s : State) (v : F64) : (s.setPsY v).hist = s.hist := rfl
@[simp] theorem State.setPsY_mem (s : State) (v : F64) : (s.setPsY v).mem = s.mem := rfl
@[simp] theorem State.setPsY_params (s : State) (v : F64) : (s.setPsY v).params = s.params := rfl
@[simp] theorem State.setPsY_script (s : State) (v : F64) : (s.setPsY v).script = s.script := rfl
@[simp] theorem State.setPsY_returned (s : State) (v : F64) : (s.setPsY v).returned = s.returned := rfl

/-! ## setInput -/

@[simp] theorem State.setInput_cfg (s : State) (v : Descriptor) : (s.setInput v).cfg = s.cfg := rfl
@[simp] theorem State.setInput_cmd (s : State) (v : Descriptor) : (s.setInput v).cmd = s.cmd := rfl
@[simp] theorem State.setInput_result (s : State) (v : Descriptor) : (s.setInput v).result = s.result := rfl
@[simp] theorem State.setInput_status (s : State) (v : Descriptor) : (s.setInput v).status = s.status := rfl
@[simp] theorem State.setInput_retval (s : State) (v : Descriptor) : (s.setInput v).retval = s.retval := rfl
@[simp] theorem State.setInput_psChannel (s : State) (v : Descriptor) : (s.setInput v).psChannel = s.psChannel := rfl
@[simp] theorem State.setInput_psX (s : State) (v : Descriptor) : (s.setInput v).psX = s.psX := rfl
@[simp] theorem State.setInput_psY (s : State) (v : Descriptor) : (s.setInput v).psY = s.psY := rfl
@[simp] theorem State.setInput_input (s : State) (v : Descriptor) : (s.setInput v).input = v := rfl
@[simp] theorem State.setInput_output (s : State) (v : Descriptor) : (s.setInput v).output = s.output := rfl
@[simp] theorem State.setInput_actFormat (s : State) (v : Descriptor) : (s.setInput v).actFormat = s.actFormat := rfl
@[simp] theorem State.setInput_actChannels (s : State) (v : Descriptor) : (s.setInput v).actChannels = s.actChannels := rfl
@[simp] theorem State.setInput_coef (s : State) (v : Descriptor) : (s.setInput v).coef = s.coef := rfl
@[simp] theorem State.setInput_dsn (s : State) (v : Descriptor) : (s.setInput v).dsn = s.dsn := rfl
@[simp] theorem State.setInput_hist (s : State) (v : Descriptor) : (s.setInput v).hist = s.hist := rfl
@[simp] theorem State.setInput_mem (s : State) (v : Descriptor) : (s.setInput v).mem = s.mem := rfl
@[simp] theorem State.setInput_params (s : State) (v : Descriptor) : (s.setInput v).params = s.params := rfl
@[simp] theorem State.setInput_script (s : State) (v : Descriptor) : (s.setInput v).script = s.script := rfl
@[simp] theorem State.setInput_returned (s : State) (v : Descriptor) : (s.setInput v).returned = s.returned := rfl

/-! ## setOutput -/

@[simp] theorem State.setOutput_cfg (s : State) (v : Descriptor) : (s.setOutput v).cfg = s.cfg := rfl
@[simp] theorem State.setOutput_cmd (s : State) (v : Descriptor) : (s.setOutput v).cmd = s.cmd := rfl
@[simp] theorem State.setOutput_result (s : State) (v : Descriptor) : (s.setOutput v).result = s.result := rfl
@[simp] theorem State.setOutput_status (s : State) (v : Descriptor) : (s.setOutput v).status = s.status := rfl
@[simp] theorem State.setOutput_retval (s : State) (v : Descriptor) : (s.setOutput v).retval = s.retval := rfl
@[simp] theorem State.setOutput_psChannel (s : State) (v : Descriptor) : (s.setOutput v).psChannel = s.psChannel := rfl
@[simp] theorem State.setOutput_psX (s : State) (v : Descriptor) : (s.setOutput v).psX = s.psX := rfl
@[simp] theorem State.setOutput_psY (s : State) (v : Descriptor) : (s.setOutput v).psY = s.psY := rfl
@[simp] theorem State.setOutput_input (s : State) (v : Descriptor) : (s.setOutput v).input = s.input := rfl
@[simp] theorem State.setOutput_output (s : State) (v : Descriptor) : (s.setOutput v).output = v := rfl
@[simp] theorem State.setOutput_actFormat (s : State) (v : Descriptor) : (s.setOutput v).actFormat = s.actFormat := rfl
@[simp] theorem State.setOutput_actChannels (s : State) (v : Descriptor) : (s.setOutput v).actChannels = s.actChannels := rfl
@[simp] theorem State.setOutput_coef (s : State) (v : Descriptor) : (s.setOutput v).coef = s.coef := rfl
@[simp] theorem State.setOutput_dsn (s : State) (v : Descriptor) : (s.setOutput v).dsn = s.dsn := rfl
@[simp] theorem State.setOutput_hist (s : State) (v : Descriptor) : (s.setOutput v).hist = s.hist := rfl
@[simp] theorem State.setOutput_mem (s : State) (v : Descriptor) : (s.setOutput v).mem = s.mem := rfl
@[simp] theorem State.setOutput_params (s : State) (v : Descriptor) : (s.setOutput v).params = s.params := rfl
@[simp] theorem State.setOutput_script (s : State) (v : Descriptor) : (s.setOutput v).script = s.script := rfl
@[simp] theorem State.setOutput_returned (s : State) (v : Descriptor) : (s.setOutput v).returned = s.returned := rfl

/-! ## setCoef -/

@[simp] theorem State.setCoef_cfg (s : State) (v : Coefs) : (s.setCoef v).cfg = s.cfg := rfl
@[simp] theorem State.setCoef_cmd (s : State) (v : Coefs) : (s.setCoef v).cmd = s.cmd := rfl
@[simp] theorem State.setCoef_result (s : State) (v : Coefs) : (s.setCoef v).result = s.result := rfl
@[simp] theorem State.setCoef_status (s : State) (v : Coefs) : (s.setCoef v).status = s.status := rfl
@[simp] theorem State.setCoef_retval (s : State) (v : Coefs) : (s.setCoef v).retval = s.retval := rfl
@[simp] theorem State.setCoef_psChannel (s : State) (v : Coefs) : (s.setCoef v).psChannel = s.psChannel := rfl
@[simp] theorem State.setCoef_psX (s : State) (v : Coefs) : (s.setCoef v).psX = s.psX := rfl
@[simp] theorem State.setCoef_psY (s : State) (v : Coefs) : (s.setCoef v).psY = s.psY := rfl
@[simp] theorem State.setCoef_input (s : State) (v : Coefs) : (s.setCoef v).input = s.input := rfl
@[simp] theorem State.setCoef_output (s : State) (v : Coefs) : (s.setCoef v).output = s.output := rfl
@[simp] theorem State.setCoef_actFormat (s : State) (v : Coefs) : (s.setCoef v).actFormat = s.actFormat := rfl
@[simp] theorem State.setCoef_actChannels (s : State) (v : Coefs) : (s.setCoef v).actChannels = s.actChannels := rfl
@[simp] theorem State.setCoef_coef (s : State) (v : Coefs) : (s.setCoef v).coef = v := rfl
@[simp] theorem State.setCoef_dsn (s : State) (v : Coefs) : (s.setCoef v).dsn = s.dsn := rfl
@[simp] theorem State.setCoef_hist (s : State) (v : Coefs) : (s.setCoef v).hist = s.hist := rfl
@[simp] theorem State.setCoef_mem (s : State) (v : Coefs) : (s.setCoef v).mem = s.mem := rfl
@[simp] theorem State.setCoef_params (s : State) (v : Coefs) : (s.setCoef v).params = s.params := rfl
@[simp] theorem State.setCoef_script (s : State) (v : Coefs) : (s.setCoef v).script = s.script := rfl
@[simp] theorem State.setCoef_returned (s : State) (v : Coefs) : (s.setCoef v).returned = s.returned := rfl

/-! ## setDsn -/

@[simp] theorem State.setDsn_cfg (s : State) (v : Coefs) : (s.setDsn v).cfg = s.cfg := rfl
@[simp] theorem State.setDsn_cmd (s : State) (v : Coefs) : (s.setDsn v).cmd = s.cmd := rfl
@[simp] theorem State.setDsn_result (s : State) (v : Coefs) : (s.setDsn v).result = s.result := rfl
@[simp] theorem State.setDsn_status (s : State) (v : Coefs) : (s.setDsn v).status = s.status := rfl
@[simp] theorem State.setDsn_retval (s : State) (v : Coefs) : (s.setDsn v).retval = s.retval := rfl
@[simp] theorem State.setDsn_psChannel (s : State) (v : Coefs) : (s.setDsn v).psChannel = s.psChannel := rfl
@[simp] theorem State.setDsn_psX (s : State) (v : Coefs) : (s.setDsn v).psX = s.psX := rfl
@[simp] theorem State.setDsn_psY (s : State) (v : Coefs) : (s.setDsn v).psY = s.psY := rfl
@[simp] theorem State.setDsn_input (s : State) (v : Coefs) : (s.setDsn v).input = s.input := rfl
@[simp] theorem State.setDsn_output (s : State) (v : Coefs) : (s.setDsn v).output = s.output := rfl
@[simp] theorem State.setDsn_actFormat (s : State) (v : Coefs) : (s.setDsn v).actFormat = s.actFormat := rfl
@[simp] theorem State.setDsn_actChannels (s : State) (v : Coefs) : (s.setDsn v).actChannels = s.actChannels := rfl
@[simp] theorem State.setDsn_coef (s : State) (v : Coefs) : (s.setDsn v).coef = s.coef := rfl
@[simp] theorem State.setDsn_dsn (s : State) (v : Coefs) : (s.setDsn v).dsn = v := rfl
@[simp] theorem State.setDsn_hist (s : State) (v : Coefs) : (s.setDsn v).hist = s.hist := rfl
@[simp] theorem State.setDsn_mem (s : State) (v : Coefs) : (s.setDsn v).mem = s.mem := rfl
@[simp] theorem State.setDsn_params (s : State) (v : Coefs) : (s.setDsn v).params = s.params := rfl
@[simp] theorem State.setDsn_script (s : State) (v : Coefs) : (s.setDsn v).script = s.script := rfl
@[simp] theorem State.setDsn_returned (s : State) (v : Coefs) : (s.setDsn v).returned = s.returned := rfl

/-! ## setHist -/

@[simp] theorem State.setHist_cfg (s : State) (v : List Slot) : (s.setHist v).cfg = s.cfg := rfl
@[simp] theorem State.setHist_cmd (s : State) (v : List Slot) : (s.setHist v).cmd = s.cmd := rfl
@[simp] theorem State.setHist_result (s : State) (v : List Slot) : (s.setHist v).result = s.result := rfl
@[simp] theorem State.setHist_status (s : State) (v : List Slot) : (s.setHist v).status = s.status := rfl
@[simp] theorem State.setHist_retval (s : State) (v : List Slot) : (s.setHist v).retval = s.retval := rfl
@[simp] theorem State.setHist_psChannel (s : State) (v : List Slot) : (s.setHist v).psChannel = s.psChannel := rfl
@[simp] theorem State.setHist_psX (s : State) (v : List Slot) : (s.setHist v).psX = s.psX := rfl
@[simp] theorem State.setHist_psY (s : State) (v : List Slot) : (s.setHist v).psY = s.psY := rfl
@[simp] theorem State.setHist_input (s : State) (v : List Slot) : (s.setHist v).input = s.input := rfl
@[simp] theorem State.setHist_output (s : State) (v : List Slot) : (s.setHist v).output = s.output := rfl
@[simp] theorem State.setHist_actFormat (s : State) (v : List Slot) : (s.setHist v).actFormat = s.actFormat := rfl
@[simp] theorem State.setHist_actChannels (s : State) (v : List Slot) : (s.setHist v).actChannels = s.actChannels := rfl
@[simp] theorem State.setHist_coef (s : State) (v : List Slot) : (s.setHist v).coef = s.coef := rfl
@[simp] theorem State.setHist_dsn (s : State) (v : List Slot) : (s.setHist v).dsn = s.dsn := rfl
@[simp] theorem State.setHist_hist (s : State) (v : List Slot) : (s.setHist v).hist = v := rfl
@[simp] theorem State.setHist_mem (s : State) (v : List Slot) : (s.setHist v).mem = s.mem := rfl
@[simp] theorem State.setHist_params (s : State) (v : List Slot) : (s.setHist v).params = s.params := rfl
@[simp] theorem State.setHist_script (s : State) (v : List Slot) : (s.setHist v).script = s.script := rfl
@[simp] theorem State.setHist_returned (s : State) (v : List Slot) : (s.setHist v).returned = s.returned := rfl

/-! ## setMem -/

@[simp] theorem State.setMem_cfg (s : State) (v : List Host.Cell) : (s.setMem v).cfg = s.cfg := rfl
@[simp] theorem State.setMem_cmd (s : State) (v : List Host.Cell) : (s.setMem v).cmd = s.cmd := rfl
@[simp] theorem State.setMem_result (s : State) (v : List Host.Cell) : (s.setMem v).result = s.result := rfl
@[simp] theorem State.setMem_status (s : State) (v : List Host.Cell) : (s.setMem v).status = s.status := rfl
@[simp] theorem State.setMem_retval (s : State) (v : List Host.Cell) : (s.setMem v).retval = s.retval := rfl
@[simp] theorem State.setMem_psChannel (s : State) (v : List Host.Cell) : (s.setMem v).psChannel = s.psChannel := rfl
@[simp] theorem State.setMem_psX (s : State) (v : List Host.Cell) : (s.setMem v).psX = s.psX := rfl
@[simp] theorem State.setMem_psY (s : State) (v : List Host.Cell) : (s.setMem v).psY = s.psY := rfl
@[simp] theorem State.setMem_input (s : State) (v : List Host.Cell) : (s.setMem v).input = s.input := rfl
@[simp] theorem State.setMem_output (s : State) (v : List Host.Cell) : (s.setMem v).output = s.output := rfl
@[simp] theorem State.setMem_actFormat (s : State) (v : List Host.Cell) : (s.setMem v).actFormat = s.actFormat := rfl
@[simp] theorem State.setMem_actChannels (s : State) (v : List Host.Cell) : (s.setMem v).actChannels = s.actChannels := rfl
@[simp] theorem State.setMem_coef (s : State) (v : List Host.Cell) : (s.setMem v).coef = s.coef := rfl
@[simp] theorem State.setMem_dsn (s : State) (v : List Host.Cell) : (s.setMem v).dsn = s.dsn := rfl
@[simp] theorem State.setMem_hist (s : State) (v : List Host.Cell) : (s.setMem v).hist = s.hist := rfl
@[simp] theorem State.setMem_mem (s : State) (v : List Host.Cell) : (s.setMem v).mem = v := rfl
@[simp] theorem State.setMem_params (s : State) (v : List Host.Cell) : (s.setMem v).params = s.params := rfl
@[simp] theorem State.setMem_script (s : State) (v : List Host.Cell) : (s.setMem v).script = s.script := rfl
@[simp] theorem State.setMem_returned (s : State) (v : List Host.Cell) : (s.setMem v).returned = s.returned := rfl

/-! ## setScript -/

@[simp] theorem State.setScript_cfg (s : State) (v : List HostAction) : (s.setScript v).cfg = s.cfg := rfl
@[simp] theorem State.setScript_cmd (s : State) (v : List HostAction) : (s.setScript v).cmd = s.cmd := rfl
@[simp] theorem State.setScript_result (s : State) (v : List HostAction) : (s.setScript v).result = s.result := rfl
@[simp] theorem State.setScript_status (s : State) (v : List HostAction) : (s.setScript v).status = s.status := rfl
@[simp] theorem State.setScript_retval (s : State) (v : List HostAction) : (s.setScript v).retval = s.retval := rfl
@[simp] theorem State.setScript_psChannel (s : State) (v : List HostAction) : (s.setScript v).psChannel = s.psChannel := rfl
@[simp] theorem State.setScript_psX (s : State) (v : List HostAction) : (s.setScript v).psX = s.psX := rfl
@[simp] theorem State.setScript_psY (s : State) (v : List HostAction) : (s.setScript v).psY = s.psY := rfl
@[simp] theorem State.setScript_input (s : State) (v : List HostAction) : (s.setScript v).input = s.input := rfl
@[simp] theorem State.setScript_output (s : State) (v : List HostAction) : (s.setScript v).output = s.output := rfl
@[simp] theorem State.setScript_actFormat (s : State) (v : List HostAction) : (s.setScript v).actFormat = s.actFormat := rfl
@[simp] theorem State.setScript_actChannels (s : State) (v : List HostAction) : (s.setScript v).actChannels = s.actChannels := rfl
@[simp] theorem State.setScript_coef (s : State) (v : List HostAction) : (s.setScript v).coef = s.coef := rfl
@[simp] theorem State.setScript_dsn (s : State) (v : List HostAction) : (s.setScript v).dsn = s.dsn := rfl
@[simp] theorem State.setScript_hist (s : State) (v : List HostAction) : (s.setScript v).hist = s.hist := rfl
@[simp] theorem State.setScript_mem (s : State) (v : List HostAction) : (s.setScript v).mem = s.mem := rfl
@[simp] theorem State.setScript_params (s : State) (v : List HostAction) : (s.setScript v).params = s.params := rfl
@[simp] theorem State.setScript_script (s : State) (v : List HostAction) : (s.setScript v).script = v := rfl
@[simp] theorem State.setScript_returned (s : State) (v : List HostAction) : (s.setScript v).returned = s.returned := rfl

/-! ## giveHost -/

@[simp] theorem State.giveHost_cfg (s : State) (v : Word) : (s.giveHost v).cfg = s.cfg := rfl
@[simp] theorem State.giveHost_cmd (s : State) (v : Word) : (s.giveHost v).cmd = s.cmd := rfl
@[simp] theorem State.giveHost_result (s : State) (v : Word) : (s.giveHost v).result = s.result := rfl
@[simp] theorem State.giveHost_status (s : State) (v : Word) : (s.giveHost v).status = s.status := rfl
@[simp] theorem State.giveHost_retval (s : State) (v : Word) : (s.giveHost v).retval = s.retval := rfl
@[simp] theorem State.giveHost_psChannel (s : State) (v : Word) : (s.giveHost v).psChannel = s.psChannel := rfl
@[simp] theorem State.giveHost_psX (s : State) (v : Word) : (s.giveHost v).psX = s.psX := rfl
@[simp] theorem State.giveHost_psY (s : State) (v : Word) : (s.giveHost v).psY = s.psY := rfl
@[simp] theorem State.giveHost_input (s : State) (v : Word) : (s.giveHost v).input = s.input := rfl
@[simp] theorem State.giveHost_output (s : State) (v : Word) : (s.giveHost v).output = s.output := rfl
@[simp] theorem State.giveHost_actFormat (s : State) (v : Word) : (s.giveHost v).actFormat = s.actFormat := rfl
@[simp] theorem State.giveHost_actChannels (s : State) (v : Word) : (s.giveHost v).actChannels = s.actChannels := rfl
@[simp] theorem State.giveHost_coef (s : State) (v : Word) : (s.giveHost v).coef = s.coef := rfl
@[simp] theorem State.giveHost_dsn (s : State) (v : Word) : (s.giveHost v).dsn = s.dsn := rfl
@[simp] theorem State.giveHost_hist (s : State) (v : Word) : (s.giveHost v).hist = s.hist := rfl
@[simp] theorem State.giveHost_mem (s : State) (v : Word) : (s.giveHost v).mem = s.mem := rfl
@[simp] theorem State.giveHost_params (s : State) (v : Word) : (s.giveHost v).params = s.params := rfl
@[simp] theorem State.giveHost_script (s : State) (v : Word) : (s.giveHost v).script = s.script := rfl
@[simp] theorem State.giveHost_returned (s : State) (v : Word) : (s.giveHost v).returned = v :: s.returned := rfl

/-! ## setShape -/

@[simp] theorem State.setShape_cfg (s : State) (f c : Word) : (s.setShape f c).cfg = s.cfg := rfl
@[simp] theorem State.setShape_cmd (s : State) (f c : Word) : (s.setShape f c).cmd = s.cmd := rfl
@[simp] theorem State.setShape_result (s : State) (f c : Word) : (s.setShape f c).result = s.result := rfl
@[simp] theorem State.setShape_status (s : State) (f c : Word) : (s.setShape f c).status = s.status := rfl
@[simp] theorem State.setShape_retval (s : State) (f c : Word) : (s.setShape f c).retval = s.retval := rfl
@[simp] theorem State.setShape_psChannel (s : State) (f c : Word) : (s.setShape f c).psChannel = s.psChannel := rfl
@[simp] theorem State.setShape_psX (s : State) (f c : Word) : (s.setShape f c).psX = s.psX := rfl
@[simp] theorem State.setShape_psY (s : State) (f c : Word) : (s.setShape f c).psY = s.psY := rfl
@[simp] theorem State.setShape_input (s : State) (f c : Word) : (s.setShape f c).input = s.input := rfl
@[simp] theorem State.setShape_output (s : State) (f c : Word) : (s.setShape f c).output = s.output := rfl
@[simp] theorem State.setShape_actFormat (s : State) (f c : Word) : (s.setShape f c).actFormat = f := rfl
@[simp] theorem State.setShape_actChannels (s : State) (f c : Word) : (s.setShape f c).actChannels = c := rfl
@[simp] theorem State.setShape_coef (s : State) (f c : Word) : (s.setShape f c).coef = s.coef := rfl
@[simp] theorem State.setShape_dsn (s : State) (f c : Word) : (s.setShape f c).dsn = s.dsn := rfl
@[simp] theorem State.setShape_hist (s : State) (f c : Word) : (s.setShape f c).hist = s.hist := rfl
@[simp] theorem State.setShape_mem (s : State) (f c : Word) : (s.setShape f c).mem = s.mem := rfl
@[simp] theorem State.setShape_params (s : State) (f c : Word) : (s.setShape f c).params = s.params := rfl
@[simp] theorem State.setShape_script (s : State) (f c : Word) : (s.setShape f c).script = s.script := rfl
@[simp] theorem State.setShape_returned (s : State) (f c : Word) : (s.setShape f c).returned = s.returned := rfl

/-! ## setSlot, fail, succeed, clearing -/

@[simp] theorem State.setSlot_cfg (s : State) (c : Nat) (h : Slot) : (s.setSlot c h).cfg = s.cfg := rfl
@[simp] theorem State.setSlot_cmd (s : State) (c : Nat) (h : Slot) : (s.setSlot c h).cmd = s.cmd := rfl
@[simp] theorem State.setSlot_result (s : State) (c : Nat) (h : Slot) : (s.setSlot c h).result = s.result := rfl
@[simp] theorem State.setSlot_status (s : State) (c : Nat) (h : Slot) : (s.setSlot c h).status = s.status := rfl
@[simp] theorem State.setSlot_retval (s : State) (c : Nat) (h : Slot) : (s.setSlot c h).retval = s.retval := rfl
@[simp] theorem State.setSlot_psChannel (s : State) (c : Nat) (h : Slot) : (s.setSlot c h).psChannel = s.psChannel := rfl
@[simp] theorem State.setSlot_psX (s : State) (c : Nat) (h : Slot) : (s.setSlot c h).psX = s.psX := rfl
@[simp] theorem State.setSlot_psY (s : State) (c : Nat) (h : Slot) : (s.setSlot c h).psY = s.psY := rfl
@[simp] theorem State.setSlot_input (s : State) (c : Nat) (h : Slot) : (s.setSlot c h).input = s.input := rfl
@[simp] theorem State.setSlot_output (s : State) (c : Nat) (h : Slot) : (s.setSlot c h).output = s.output := rfl
@[simp] theorem State.setSlot_actFormat (s : State) (c : Nat) (h : Slot) : (s.setSlot c h).actFormat = s.actFormat := rfl
@[simp] theorem State.setSlot_actChannels (s : State) (c : Nat) (h : Slot) : (s.setSlot c h).actChannels = s.actChannels := rfl
@[simp] theorem State.setSlot_coef (s : State) (c : Nat) (h : Slot) : (s.setSlot c h).coef = s.coef := rfl
@[simp] theorem State.setSlot_dsn (s : State) (c : Nat) (h : Slot) : (s.setSlot c h).dsn = s.dsn := rfl
@[simp] theorem State.setSlot_hist (s : State) (c : Nat) (h : Slot) : (s.setSlot c h).hist = s.hist.set c h := rfl
@[simp] theorem State.setSlot_mem (s : State) (c : Nat) (h : Slot) : (s.setSlot c h).mem = s.mem := rfl
@[simp] theorem State.setSlot_params (s : State) (c : Nat) (h : Slot) : (s.setSlot c h).params = s.params := rfl
@[simp] theorem State.setSlot_script (s : State) (c : Nat) (h : Slot) : (s.setSlot c h).script = s.script := rfl
@[simp] theorem State.setSlot_returned (s : State) (c : Nat) (h : Slot) : (s.setSlot c h).returned = s.returned := rfl
@[simp] theorem State.fail_cfg (s : State) (c : Cause) : (s.fail c).cfg = s.cfg := rfl
@[simp] theorem State.fail_cmd (s : State) (c : Cause) : (s.fail c).cmd = s.cmd := rfl
@[simp] theorem State.fail_result (s : State) (c : Cause) : (s.fail c).result = failureResult c := rfl
@[simp] theorem State.fail_status (s : State) (c : Cause) : (s.fail c).status = s.status := rfl
@[simp] theorem State.fail_retval (s : State) (c : Cause) : (s.fail c).retval = s.retval := rfl
@[simp] theorem State.fail_psChannel (s : State) (c : Cause) : (s.fail c).psChannel = s.psChannel := rfl
@[simp] theorem State.fail_psX (s : State) (c : Cause) : (s.fail c).psX = s.psX := rfl
@[simp] theorem State.fail_psY (s : State) (c : Cause) : (s.fail c).psY = s.psY := rfl
@[simp] theorem State.fail_input (s : State) (c : Cause) : (s.fail c).input = s.input := rfl
@[simp] theorem State.fail_output (s : State) (c : Cause) : (s.fail c).output = s.output := rfl
@[simp] theorem State.fail_actFormat (s : State) (c : Cause) : (s.fail c).actFormat = s.actFormat := rfl
@[simp] theorem State.fail_actChannels (s : State) (c : Cause) : (s.fail c).actChannels = s.actChannels := rfl
@[simp] theorem State.fail_coef (s : State) (c : Cause) : (s.fail c).coef = s.coef := rfl
@[simp] theorem State.fail_dsn (s : State) (c : Cause) : (s.fail c).dsn = s.dsn := rfl
@[simp] theorem State.fail_hist (s : State) (c : Cause) : (s.fail c).hist = s.hist := rfl
@[simp] theorem State.fail_mem (s : State) (c : Cause) : (s.fail c).mem = s.mem := rfl
@[simp] theorem State.fail_params (s : State) (c : Cause) : (s.fail c).params = s.params := rfl
@[simp] theorem State.fail_script (s : State) (c : Cause) : (s.fail c).script = s.script := rfl
@[simp] theorem State.fail_returned (s : State) (c : Cause) : (s.fail c).returned = s.returned := rfl
@[simp] theorem State.succeed_cfg (s : State) : s.succeed.cfg = s.cfg := rfl
@[simp] theorem State.succeed_cmd (s : State) : s.succeed.cmd = s.cmd := rfl
@[simp] theorem State.succeed_result (s : State) : s.succeed.result = successResult := rfl
@[simp] theorem State.succeed_status (s : State) : s.succeed.status = s.status := rfl
@[simp] theorem State.succeed_retval (s : State) : s.succeed.retval = s.retval := rfl
@[simp] theorem State.succeed_psChannel (s : State) : s.succeed.psChannel = s.psChannel := rfl
@[simp] theorem State.succeed_psX (s : State) : s.succeed.psX = s.psX := rfl
@[simp] theorem State.succeed_psY (s : State) : s.succeed.psY = s.psY := rfl
@[simp] theorem State.succeed_input (s : State) : s.succeed.input = s.input := rfl
@[simp] theorem State.succeed_output (s : State) : s.succeed.output = s.output := rfl
@[simp] theorem State.succeed_actFormat (s : State) : s.succeed.actFormat = s.actFormat := rfl
@[simp] theorem State.succeed_actChannels (s : State) : s.succeed.actChannels = s.actChannels := rfl
@[simp] theorem State.succeed_coef (s : State) : s.succeed.coef = s.coef := rfl
@[simp] theorem State.succeed_dsn (s : State) : s.succeed.dsn = s.dsn := rfl
@[simp] theorem State.succeed_hist (s : State) : s.succeed.hist = s.hist := rfl
@[simp] theorem State.succeed_mem (s : State) : s.succeed.mem = s.mem := rfl
@[simp] theorem State.succeed_params (s : State) : s.succeed.params = s.params := rfl
@[simp] theorem State.succeed_script (s : State) : s.succeed.script = s.script := rfl
@[simp] theorem State.succeed_returned (s : State) : s.succeed.returned = s.returned := rfl

/-! ## The history and its length -/

@[simp] theorem State.setHist_maxChannels (s : State) (h : List Slot) : (s.setHist h).maxChannels = h.length := rfl

@[simp] theorem State.setSlot_maxChannels (s : State) (c : Nat) (h : Slot) :
    (s.setSlot c h).maxChannels = s.maxChannels := by
  simp [State.maxChannels]

theorem State.setSlot_slot_same (s : State) (c : Nat) (h : Slot) (hc : c < s.maxChannels) :
    (s.setSlot c h).slot c = h := by
  have hc' : c < s.hist.length := hc
  simp [State.slot, List.getD_eq_getElem?_getD, hc']

theorem State.setSlot_slot_other (s : State) (c d : Nat) (h : Slot) (hd : d ≠ c) :
    (s.setSlot c h).slot d = s.slot d := by
  simp [State.slot, List.getD_eq_getElem?_getD, Ne.symm hd]

@[simp] theorem zeroSlotsFrom_length (n : Nat) (h : List Slot) : (zeroSlotsFrom n h).length = h.length := by
  simp only [zeroSlotsFrom, List.length_append, List.length_take, List.length_replicate]
  omega

theorem zeroSlotsFrom_getElem? (n c : Nat) (h : List Slot) :
    (zeroSlotsFrom n h)[c]? = if c < h.length then some (if c < n then h.getD c Slot.zero else Slot.zero) else none := by
  simp only [zeroSlotsFrom, List.getD_eq_getElem?_getD, List.getElem?_append, List.length_take,
    List.getElem?_take, List.getElem?_replicate]
  by_cases hl : c < h.length
  · by_cases hn : c < n
    · simp [hl, hn]
    · rw [if_neg (by omega), if_pos (by omega), if_pos hl, if_neg hn]
  · rw [if_neg (by omega), if_neg (by omega), if_neg hl]

theorem zeroSlotsFrom_getD (n c : Nat) (h : List Slot) :
    (zeroSlotsFrom n h).getD c Slot.zero = if c < n then h.getD c Slot.zero else Slot.zero := by
  rw [List.getD_eq_getElem?_getD, zeroSlotsFrom_getElem?]
  by_cases hl : c < h.length
  · rw [if_pos hl, Option.getD_some]
  · rw [if_neg hl, Option.getD_none, List.getD_eq_default _ _ (by omega)]
    split <;> rfl

/-- Zeroing from slot `n` up keeps the slots below `n` and leaves zeros in the others. -/
theorem State.zeroSlots_slot (s : State) (n c : Nat) :
    (s.setHist (zeroSlotsFrom n s.hist)).slot c = if c < n then s.slot c else Slot.zero :=
  zeroSlotsFrom_getD n c s.hist

/-! ## Reset -/

@[simp] theorem State.resetEvent_mem (s : State) : s.resetEvent.mem = s.mem := rfl
@[simp] theorem State.resetEvent_params (s : State) : s.resetEvent.params = s.params := rfl
@[simp] theorem State.resetEvent_script (s : State) : s.resetEvent.script = s.script := rfl
@[simp] theorem State.resetEvent_returned (s : State) : s.resetEvent.returned = s.returned := rfl

@[simp] theorem State.resetEvent_maxChannels (s : State) : s.resetEvent.maxChannels = s.maxChannels := by
  simp [State.resetEvent, State.afterReset, State.maxChannels]

end Sys2Proof.Machine
end

