-- ==== Sys2Proof/Laws/Commands.lean ====
section
/-! SUPPORT. What each command, each transaction and a step can do: one inversion lemma each. -/

namespace Sys2Proof.Machine

/-! ## The end of a command -/

theorem State.issue_error {s : State} {w : Word} {body : State → Except Cause State} {c : Cause}
    (h : body (s.setCmd w) = .error c) : s.issue w body = (s.setCmd w).fail c := by
  simp [State.issue, h, State.conclude]

theorem State.issue_ok {s t : State} {w : Word} {body : State → Except Cause State}
    (h : body (s.setCmd w) = .ok t) : s.issue w body = t.succeed := by
  simp [State.issue, h, State.conclude]

/-- A command fails with a cause, or succeeds with the state its body gives. -/
theorem State.issue_cases (s : State) (w : Word) (body : State → Except Cause State) :
    (∃ c, body (s.setCmd w) = .error c ∧ s.issue w body = (s.setCmd w).fail c) ∨
    (∃ t, body (s.setCmd w) = .ok t ∧ s.issue w body = t.succeed) := by
  cases h : body (s.setCmd w) with
  | error c => exact .inl ⟨c, rfl, State.issue_error h⟩
  | ok t => exact .inr ⟨t, rfl, State.issue_ok h⟩

/-! ## The designer -/

theorem checkFinite_ok {k k' : Coefs} (h : checkFinite k = .ok k') : k' = k ∧ k.finite = true := by
  simp only [checkFinite] at h
  split at h
  · exact ⟨(Except.ok.inj h).symm, by assumption⟩
  · cases h

/-- A design that succeeds passed its checks, is `design` and is finite. -/
theorem designChecked_ok {t : Transc} {sr : Nat} {g slope f : F64} {k : Coefs}
    (h : designChecked t sr g slope f = .ok k) :
    checkDesign sr g slope f = none ∧ k = design t sr g slope f ∧ k.finite = true := by
  simp only [designChecked] at h
  split at h
  · cases h
  · obtain ⟨rfl, hf⟩ := checkFinite_ok h
    exact ⟨by assumption, rfl, hf⟩

theorem State.designStaged_finite {s : State} {k : Coefs} (h : s.designStaged = .ok k) : k.finite = true :=
  (designChecked_ok h).2.2

/-- A Configuration that passes has a format, a channel count in range and a finite design. -/
theorem State.configChecked_ok {s : State} {k : Coefs} (h : s.configChecked = .ok k) :
    (formatOfTag s.cfg.format).isSome = true ∧ 1 ≤ s.cfg.channels.toNat ∧ s.cfg.channels.toNat ≤ s.maxChannels ∧
      s.designStaged = .ok k := by
  simp only [State.configChecked] at h
  split at h
  · cases h
  · split at h
    · cases h
    · rename_i h1 h2
      have h2' := not_not.1 h2
      refine ⟨?_, h2'.1, h2'.2, h⟩
      cases hf : formatOfTag s.cfg.format with
      | none => simp [hf] at h1
      | some f => rfl

/-! ## The bodies of the commands -/

theorem designCommand_ok {s t : State} (h : designCommand s = .ok t) :
    ∃ k, s.designStaged = .ok k ∧ t = s.setDsn k := by
  simp only [designCommand] at h
  split at h
  · cases h
  · exact ⟨_, by assumption, (Except.ok.inj h).symm⟩

theorem newCommand_ok {s t : State} (h : newCommand s = .ok t) :
    ∃ k, s.configChecked = .ok k ∧
      t = (((s.setCoef k).setShape s.cfg.format s.cfg.channels).clearHistory).setStatus (statusReady s.status) := by
  simp only [newCommand] at h
  split at h
  · cases h
  · exact ⟨_, by assumption, (Except.ok.inj h).symm⟩

theorem reinitCommand_ok {s t : State} (h : reinitCommand s = .ok t) :
    s.ready = true ∧ ∃ k, s.configChecked = .ok k ∧
      t = ((s.setCoef k).setShape s.cfg.format s.cfg.channels).setHist
        (zeroSlotsFrom (min s.actChannels.toNat s.cfg.channels.toNat) s.hist) := by
  simp only [reinitCommand] at h
  split at h
  · cases h
  · rename_i hr
    split at h
    · cases h
    · exact ⟨by simpa using hr, _, by assumption, (Except.ok.inj h).symm⟩

theorem psampleCommand_ok {s t : State} (h : psampleCommand s = .ok t) :
    s.ready = true ∧ s.psChannel.toNat < s.actChannels.toNat ∧
      t = (s.setSlot s.psChannel.toNat
          (biquadStep s.coef (s.slot s.psChannel.toNat) (valueOf s.psX)).2).setPsY
        (biquadStep s.coef (s.slot s.psChannel.toNat) (valueOf s.psX)).1 := by
  simp only [psampleCommand] at h
  split at h
  · cases h
  · rename_i hr
    split at h
    · cases h
    · rename_i hc
      exact ⟨by simpa using hr, not_not.1 hc, (Except.ok.inj h).symm⟩

theorem clearCommand_ok {s t : State} (h : clearCommand s = .ok t) : s.ready = true ∧ t = s.clearHistory := by
  simp only [clearCommand] at h
  split at h
  · cases h
  · rename_i hr
    exact ⟨by simpa using hr, (Except.ok.inj h).symm⟩

theorem latencyCommand_ok {s t : State} (h : latencyCommand s = .ok t) : t = s.setRetval Config.latencyFrames :=
  (Except.ok.inj h).symm

/-- A PROCESS that passes its checks has a filter, matching shapes, admitted buffers, the same or disjoint. -/
theorem processChecks_ok {s : State} {fmt : Format} (h : processChecks s = .ok fmt) :
    s.ready = true ∧ s.input.format = s.output.format ∧ s.input.format = s.actFormat ∧
      formatOfTag s.actFormat = some fmt ∧ s.input.frames = s.output.frames ∧
      s.input.channels = s.output.channels ∧ s.input.channels = s.actChannels ∧
      admitted s.params.addrWidth s.params.readable s.input.addr.toNat (s.bufferBytes fmt) = true ∧
      admitted s.params.addrWidth s.params.writable s.output.addr.toNat (s.bufferBytes fmt) = true ∧
      sameOrDisjoint s.input.addr.toNat s.output.addr.toNat (s.bufferBytes fmt) = true := by
  simp only [processChecks] at h
  split at h
  · cases h
  · rename_i hr
    split at h
    · cases h
    · rename_i hf
      split at h
      · cases h
      · rename_i f hfmt
        split at h
        · cases h
        · rename_i hfr
          split at h
          · cases h
          · rename_i hch
            split at h
            · cases h
            · rename_i hadm
              split at h
              · cases h
              · rename_i hsd
                cases Except.ok.inj h
                rw [not_or, not_not, not_not] at hf hch
                rw [not_not] at hfr hadm hsd
                exact ⟨by simpa using hr, hf.1, hf.2, hfmt, hfr, hch.1, hch.2, hadm.1, hadm.2, hsd⟩

theorem processCommand_ok {s t : State} (h : processCommand s = .ok t) :
    ∃ fmt, processChecks s = .ok fmt ∧ t = processLoop fmt s := by
  simp only [processCommand] at h
  split at h
  · cases h
  · exact ⟨_, by assumption, (Except.ok.inj h).symm⟩

/-! ## Loops -/

/-- What every pass keeps, the loop keeps. -/
theorem loopFrom_keeps {body : Nat → State → State} (P : State → Prop) (n first : Nat) (s : State)
    (hbody : ∀ i s, first ≤ i → i < first + n → P s → P (body i s)) (hs : P s) : P (loopFrom body n first s) := by
  induction n generalizing first s with
  | zero => exact hs
  | succ n ih =>
    exact ih (first + 1) (body first s) (fun i s h1 h2 => hbody i s (by omega) (by omega))
      (hbody first s (Nat.le_refl _) (by omega) hs)

/-- A loop of `m + n` passes is the first `m`, then the other `n`. -/
theorem loopFrom_add (body : Nat → State → State) (m n first : Nat) (s : State) :
    loopFrom body (m + n) first s = loopFrom body n (first + m) (loopFrom body m first s) := by
  induction m generalizing first s with
  | zero => simp [loopFrom]
  | succ m ih =>
    rw [Nat.succ_add, loopFrom, loopFrom, ih, Nat.add_assoc, Nat.add_comm 1 m]

/-- One pass of PROCESS changes the history and the sample memory only. -/
theorem processSample_frame (fmt : Format) (f c : Nat) (s : State) :
    processSample fmt f c s = { s with hist := (processSample fmt f c s).hist, mem := (processSample fmt f c s).mem } :=
  rfl

/-- The whole loop of PROCESS changes the history and the sample memory only, and keeps the number of slots. -/
theorem processLoop_frame (fmt : Format) (s : State) :
    (∃ h m, processLoop fmt s = { s with hist := h, mem := m }) ∧ (processLoop fmt s).maxChannels = s.maxChannels := by
  let P : State → Prop := fun t => (∃ h m, t = { s with hist := h, mem := m }) ∧ t.maxChannels = s.maxChannels
  have one : ∀ f c t, P t → P (processSample fmt f c t) := by
    rintro f c t ⟨⟨h, m, rfl⟩, hl⟩
    refine ⟨⟨_, _, processSample_frame fmt f c _⟩, ?_⟩
    simpa [processSample, State.maxChannels] using hl
  exact loopFrom_keeps P _ _ s
    (fun f t _ _ ht => loopFrom_keeps P _ _ t (fun c u _ _ hu => one f c u hu) ht) ⟨⟨s.hist, s.mem, rfl⟩, rfl⟩

/-! ## Transactions -/

/-- A word written to `CMD` either names no command, and fails, or runs its command. -/
theorem State.execute_cases (s : State) (w : Word) :
    (∃ e, decodeCommand w = .error e ∧ s.execute w = (s.setCmd w).fail (causeOfCommandError e)) ∨
    (∃ c, decodeCommand w = .ok c ∧ s.execute w = s.issue w (commandBody c)) := by
  cases h : decodeCommand w with
  | error e => exact .inl ⟨e, rfl, by simp [State.execute, h]⟩
  | ok c => exact .inr ⟨c, rfl, by simp [State.execute, h]⟩

/-- A WR changes nothing, runs a command, or stores one register. -/
theorem execWr_cases (reg : RegNum) (data : Word) (s : State) :
    execWr reg data s = .next s ∨ execWr reg data s = .next (s.execute data) ∨
    ∃ r, r ≠ .cmd ∧ r.hostWritable = true ∧ execWr reg data s = .next (s.writeReg r data) := by
  unfold execWr
  split
  · exact .inl rfl
  · rename_i r _
    by_cases hw : r.hostWritable = false
    · simp [hw]
    · by_cases hc : r = .cmd
      · simp [hc, Reg.hostWritable]
      · exact .inr (.inr ⟨r, hc, by simpa using hw, by simp [hw, hc]⟩)

/-- An instruction that is not a plain WR or RD is a command. -/
theorem exec_command (c : Command) (s : State) :
    exec c.toInstr s = .next (s.issue (encodeCommand c) (commandBody c)) := by
  cases c <;> rfl

/-- A step does nothing, executes the next transaction, stores a byte for the host, or resets. -/
theorem step_cases (s : State) :
    (s.script = [] ∧ step s = .next s) ∨
    (∃ t rest, s.script = .transaction t :: rest ∧ step s = exec (decode t) (s.setScript rest)) ∨
    (∃ a b rest, s.script = .store a b :: rest ∧ step s = hostStore a b (s.setScript rest)) ∨
    (∃ rest, s.script = .reset :: rest ∧ step s = .next (s.setScript rest).resetEvent) := by
  cases h : s.script with
  | nil => exact .inl ⟨rfl, by simp [step, h]⟩
  | cons x rest =>
    cases x with
    | transaction t => exact .inr (.inl ⟨t, rest, rfl, by simp [step, h]⟩)
    | store a b => exact .inr (.inr (.inl ⟨a, b, rest, rfl, by simp [step, h]⟩))
    | reset => exact .inr (.inr (.inr ⟨rest, rfl, by simp [step, h]⟩))

/-- What any instruction leaves: the state itself, a plain register store, a value for the host, or a command's end. -/
theorem exec_cases (i : Instr) (s : State) :
    exec i s = .next s ∨
    (∃ r v, r ≠ .cmd ∧ r.hostWritable = true ∧ exec i s = .next (s.writeReg r v)) ∨
    (∃ v, exec i s = .next (s.giveHost v)) ∨
    (∃ w c, exec i s = .next ((s.setCmd w).fail c)) ∨
    (∃ w c t, commandBody c (s.setCmd w) = .ok t ∧ exec i s = .next t.succeed) := by
  have issue : ∀ w c, (∃ k, (s.issue w (commandBody c)) = (s.setCmd w).fail k) ∨
      (∃ t, commandBody c (s.setCmd w) = .ok t ∧ s.issue w (commandBody c) = t.succeed) := fun w c =>
    (State.issue_cases s w (commandBody c)).imp (fun ⟨k, _, h⟩ => ⟨k, h⟩) id
  have cmd : ∀ c : Command, (∃ w k, exec c.toInstr s = .next ((s.setCmd w).fail k)) ∨
      (∃ w d t, commandBody d (s.setCmd w) = .ok t ∧ exec c.toInstr s = .next t.succeed) := fun c => by
    rcases issue (encodeCommand c) c with ⟨k, h⟩ | ⟨t, ht, h⟩
    · exact .inl ⟨_, k, by rw [exec_command, h]⟩
    · exact .inr ⟨_, c, t, ht, by rw [exec_command, h]⟩
  cases i with
  | wr reg data =>
    rcases execWr_cases reg data s with h | h | ⟨r, hr, hw, h⟩
    · exact .inl h
    · rcases State.execute_cases s data with ⟨e, _, he⟩ | ⟨c, _, hc⟩
      · exact .inr (.inr (.inr (.inl ⟨data, _, by rw [exec, h, he]⟩)))
      · rcases issue data c with ⟨k, hk⟩ | ⟨t, ht, hk⟩
        · exact .inr (.inr (.inr (.inl ⟨data, k, by rw [exec, h, hc, hk]⟩)))
        · exact .inr (.inr (.inr (.inr ⟨data, c, t, ht, by rw [exec, h, hc, hk]⟩)))
    · exact .inr (.inl ⟨r, data, hr, hw, h⟩)
  | rd reg => exact .inr (.inr (.inl ⟨_, rfl⟩))
  | new => exact .inr (.inr (.inr (cmd .new)))
  | reinit => exact .inr (.inr (.inr (cmd .reinit)))
  | process => exact .inr (.inr (.inr (cmd .process)))
  | psample => exact .inr (.inr (.inr (cmd .psample)))
  | clear => exact .inr (.inr (.inr (cmd .clear)))
  | latency => exact .inr (.inr (.inr (cmd .latency)))
  | design => exact .inr (.inr (.inr (cmd .design)))

end Sys2Proof.Machine
end

