-- ==== Sys2Proof/Laws/Encoding.lean ====
section
/-! SUPPORT. The fields of a transaction that was made of three fields, and what decoding can answer. -/

namespace Sys2Proof

theorem Transaction.make_bit (b : Bool) (r : RegNum) (d : Word) (i : Nat) :
    (Transaction.make b r d).getLsbD i =
      if i < 64 then d.getLsbD i else if i < 76 then r.getLsbD (i - 64) else (BitVec.ofBool b).getLsbD (i - 76) := by
  rw [Transaction.make, BitVec.getLsbD_append]
  by_cases h : i < 64
  · simp [h]
  · have : (i - 64 < 12) = (i < 76) := by apply propext; omega
    simp only [h, if_false, BitVec.getLsbD_append, this, Nat.sub_sub]

@[simp] theorem Transaction.make_isWrite (b : Bool) (r : RegNum) (d : Word) :
    (Transaction.make b r d).isWrite = b := by
  rw [Transaction.isWrite, Transaction.make_bit]
  cases b <;> simp

@[simp] theorem Transaction.make_reg (b : Bool) (r : RegNum) (d : Word) : (Transaction.make b r d).reg = r := by
  apply BitVec.eq_of_getLsbD_eq
  intro i hi
  have h1 : ¬64 + i < 64 := by omega
  have h2 : 64 + i < 76 := by omega
  simp only [Transaction.reg, BitVec.getLsbD_extractLsb', hi, decide_true, Bool.true_and, Transaction.make_bit, h1, h2,
    if_false, if_true, Nat.add_sub_cancel_left]

@[simp] theorem Transaction.make_data (b : Bool) (r : RegNum) (d : Word) : (Transaction.make b r d).data = d := by
  apply BitVec.eq_of_getLsbD_eq
  intro i hi
  simp only [Transaction.data, BitVec.getLsbD_extractLsb', hi, decide_true, Bool.true_and, Transaction.make_bit,
    Nat.zero_add, if_true]

/-- A command's constructor is well-formed. -/
@[simp] theorem Command.toInstr_wellFormed (c : Command) : c.toInstr.wellFormed = true := by
  cases c <;> rfl

/-- A word that names no command is none of 1 to 7. -/
theorem decodeCommand_error {w : Word} {e : CommandError} (h : decodeCommand w = .error e) :
    ¬(1 ≤ w.toNat ∧ w.toNat ≤ 7) := by
  rintro ⟨h1, h7⟩
  obtain h' | h' | h' | h' | h' | h' | h' : w.toNat = 1 ∨ w.toNat = 2 ∨ w.toNat = 3 ∨ w.toNat = 4 ∨ w.toNat = 5 ∨
      w.toNat = 6 ∨ w.toNat = 7 := by omega
  all_goals simp [decodeCommand, h'] at h

/-- Every transaction is decoded to a well-formed instruction. -/
theorem decode_wellFormed (t : Transaction) : (decode t).wellFormed = true := by
  unfold decode
  split
  · split
    · split
      · simp
      · rename_i h
        have := decodeCommand_error h
        simp only [Instr.wellFormed, Bool.not_eq_true', Bool.and_eq_false_iff, decide_eq_false_iff_not]
        exact .inr this
    · rename_i h
      simp [Instr.wellFormed, h]
  · rfl

end Sys2Proof
end

