-- ==== Sys2Proof/Laws/Float.lean ====
section
/-! SUPPORT. Patterns and rounding: packing and unpacking, and that a representable value rounds to itself. -/

namespace Sys2Proof.Machine

/-! ## Packing -/

theorem absBits_lt (a : F64) : absBits a < 2 ^ 63 := Nat.mod_lt _ (by decide)

theorem pack_toNat (neg : Bool) {p : Nat} (hp : p < 2 ^ 63) :
    (pack neg p).toNat = (if neg then 2 ^ 63 else 0) + p := by
  simp only [pack, BitVec.toNat_ofNat]
  exact Nat.mod_eq_of_lt (by split <;> omega)

@[simp] theorem absBits_pack (neg : Bool) {p : Nat} (hp : p < 2 ^ 63) : absBits (pack neg p) = p := by
  rw [absBits, pack_toNat neg hp]
  cases neg <;> simp only [Bool.false_eq_true, if_true, if_false] <;> omega

@[simp] theorem signOf_pack (neg : Bool) {p : Nat} (hp : p < 2 ^ 63) : signOf (pack neg p) = neg := by
  rw [signOf, pack_toNat neg hp]
  cases neg <;> simp
  omega

/-- A pattern is its sign and its magnitude. -/
theorem pack_signOf_absBits (a : F64) : pack (signOf a) (absBits a) = a := by
  apply BitVec.eq_of_toNat_eq
  have h := a.isLt
  rw [pack_toNat _ (absBits_lt a), signOf, absBits]
  by_cases hs : 2 ^ 63 ≤ a.toNat <;> simp only [hs, decide_true, decide_false, if_true, Bool.false_eq_true, if_false] <;> omega

/-- Two patterns of one sign and one magnitude are equal. -/
theorem eq_of_sign_abs {a b : F64} (hs : signOf a = signOf b) (ha : absBits a = absBits b) : a = b := by
  rw [← pack_signOf_absBits a, ← pack_signOf_absBits b, hs, ha]

/-! ## The classes of patterns -/

theorem isFinite_iff (a : F64) : isFinite a = true ↔ absBits a < infBits := by simp [isFinite]

theorem isNaN_iff (a : F64) : isNaN a = true ↔ infBits < absBits a := by simp [isNaN]

theorem isInf_iff (a : F64) : isInf a = true ↔ absBits a = infBits := by simp [isInf]

theorem isZero_iff (a : F64) : isZero a = true ↔ absBits a = 0 := by simp [isZero]

theorem isNaN_of_isFinite {a : F64} (h : isFinite a = true) : isNaN a = false := by
  rw [isFinite_iff] at h
  simp only [isNaN, decide_eq_false_iff_not]
  omega

theorem isInf_of_isFinite {a : F64} (h : isFinite a = true) : isInf a = false := by
  rw [isFinite_iff] at h
  simp only [isInf, decide_eq_false_iff_not]
  omega

/-! ## Rounding -/

theorem nearestEven_mul (q : Nat) {d : Nat} (hd : 0 < d) : nearestEven (q * d) d = q := by
  simp [nearestEven, Nat.mul_div_cancel q hd, hd]

theorem roundMagnitude_le (frac expMax num den : Nat) : roundMagnitude frac expMax num den ≤ expMax * 2 ^ frac :=
  Nat.min_le_right _ _

theorem round64_le (num den : Nat) : round64 num den ≤ infBits := roundMagnitude_le 52 2047 num den

theorem round64_lt_two_pow (num den : Nat) : round64 num den < 2 ^ 63 :=
  Nat.lt_of_le_of_lt (round64_le num den) (by decide)

theorem quantaOfBits_zero_exp {frac p : Nat} (h : p < 2 ^ frac) : quantaOfBits frac p = p := by
  simp [quantaOfBits, Nat.div_eq_of_lt h, Nat.mod_eq_of_lt h]

theorem quantaOfBits_pos_exp {frac p : Nat} (h : 2 ^ frac ≤ p) :
    quantaOfBits frac p = (2 ^ frac + p % 2 ^ frac) * 2 ^ (p / 2 ^ frac - 1) := by
  have : p / 2 ^ frac ≠ 0 := by
    have := Nat.div_pos h (Nat.two_pow_pos frac)
    omega
  simp [quantaOfBits, this]

theorem log2_significand {frac f e : Nat} (hf : f < 2 ^ frac) : Nat.log2 ((2 ^ frac + f) * 2 ^ e) = frac + e := by
  have hpos : 0 < 2 ^ frac := Nat.two_pow_pos frac
  have hpe : 0 < 2 ^ e := Nat.two_pow_pos e
  refine (Nat.log2_eq_iff (Nat.ne_of_gt (Nat.mul_pos (by omega) hpe))).2 ⟨?_, ?_⟩
  · rw [Nat.pow_add]
    exact Nat.mul_le_mul_right _ (by omega)
  · rw [show frac + e + 1 = (frac + 1) + e by omega, Nat.pow_add, Nat.pow_succ]
    exact Nat.mul_lt_mul_of_pos_right (by omega) hpe

/-- A value of the format rounds to itself, whatever the denominator it is given over. -/
theorem roundMagnitude_exact {frac expMax p d : Nat} (hp : p ≤ expMax * 2 ^ frac) (hd : 0 < d) :
    roundMagnitude frac expMax (quantaOfBits frac p * d) d = p := by
  have hpos : 0 < 2 ^ frac := Nat.two_pow_pos frac
  rw [roundMagnitude, Nat.mul_div_cancel _ hd]
  by_cases h : p < 2 ^ frac
  · rw [quantaOfBits_zero_exp h]
    have hk : droppedBits frac p = 0 := by
      by_cases h0 : p = 0
      · simp [droppedBits, h0]
      · have := (Nat.log2_lt h0).2 h
        simp only [droppedBits]
        omega
    simp [hk, nearestEven_mul p hd, Nat.min_eq_left hp]
  · have h' : 2 ^ frac ≤ p := by omega
    have hm : p % 2 ^ frac < 2 ^ frac := Nat.mod_lt _ hpos
    have he : 1 ≤ p / 2 ^ frac := Nat.div_pos h' hpos
    have hk : droppedBits frac (quantaOfBits frac p) = p / 2 ^ frac - 1 := by
      rw [quantaOfBits_pos_exp h', droppedBits, log2_significand hm]
      omega
    have hn : nearestEven (quantaOfBits frac p * d) (d * 2 ^ (p / 2 ^ frac - 1)) = 2 ^ frac + p % 2 ^ frac := by
      rw [quantaOfBits_pos_exp h', Nat.mul_assoc, Nat.mul_comm _ d]
      exact nearestEven_mul _ (Nat.mul_pos hd (Nat.two_pow_pos _))
    simp only [hk, hn]
    have hp' := Nat.div_add_mod p (2 ^ frac)
    obtain ⟨e, hee⟩ : ∃ e, p / 2 ^ frac = e + 1 := ⟨p / 2 ^ frac - 1, by omega⟩
    rw [hee] at hp' ⊢
    have : (e + 1 - 1) * 2 ^ frac + (2 ^ frac + p % 2 ^ frac) = p := by
      rw [Nat.mul_succ, Nat.mul_comm] at hp'
      simp only [Nat.add_sub_cancel]
      omega
    rw [this, Nat.min_eq_left hp]

/-- A finite binary64 magnitude rounds to itself. -/
theorem round64_quanta {a : F64} {d : Nat} (ha : isFinite a = true) (hd : 0 < d) :
    round64 (quanta a * d) d = absBits a :=
  roundMagnitude_exact (Nat.le_of_lt ((isFinite_iff a).1 ha)) hd

/-- The integer square root found bit by bit: with the root between `r` and `r + 2^bits` it is the floor. -/
theorem isqrtFrom_spec (n : Nat) (bits r : Nat) (hlo : r * r ≤ n) (hhi : n < (r + 2 ^ bits) * (r + 2 ^ bits)) :
    isqrtFrom n bits r * isqrtFrom n bits r ≤ n ∧ n < (isqrtFrom n bits r + 1) * (isqrtFrom n bits r + 1) := by
  induction bits generalizing r with
  | zero => exact ⟨hlo, by simpa [isqrtFrom] using hhi⟩
  | succ bits ih =>
    rw [isqrtFrom]
    split
    · rename_i h
      exact ih _ h (by rwa [Nat.add_assoc, ← Nat.two_mul, Nat.mul_comm 2, ← Nat.pow_succ])
    · rename_i h
      exact ih _ hlo (by omega)

end Sys2Proof.Machine
end

