-- ==== Sys2Proof/Laws/PerInstr.lean ====
section
/-! SUPPORT. Statements made per instruction: the transaction of an instruction is a write exactly when the instruction
is no RD, and goes to `CMD` exactly when the instruction is a command or a WR of `CMD` (30_encoding R45, R48). -/

namespace Sys2Proof.Laws.TransactionFields

/-- The register number an instruction's transaction carries. -/
def target : Instr → RegNum
  | .wr reg _ => reg
  | .rd reg => reg
  | .new | .reinit | .process | .psample | .clear | .latency | .design => cmdNumber

/-- Whether an instruction's transaction is a write. -/
def writes : Instr → Bool
  | .rd _ => false
  | .wr _ _ | .new | .reinit | .process | .psample | .clear | .latency | .design => true

/-- The W and REG fields of the instruction's transaction, and that the transaction is decoded to a well-formed term. -/
def Statement (i : Instr) : Prop :=
  (encode i).isWrite = writes i ∧ (encode i).reg = target i ∧ (decode (encode i)).wellFormed = true

theorem wr (reg : RegNum) (data : Word) : Statement (.wr reg data) := by
  simp [Statement, encode, writes, target, decode_wellFormed]

theorem rd (reg : RegNum) : Statement (.rd reg) := by
  simp [Statement, encode, writes, target, decode_wellFormed]

theorem new : Statement .new := by simp [Statement, encode, commandTransaction, writes, target, decode_wellFormed]

theorem reinit : Statement .reinit := by simp [Statement, encode, commandTransaction, writes, target, decode_wellFormed]

theorem process : Statement .process := by
  simp [Statement, encode, commandTransaction, writes, target, decode_wellFormed]

theorem psample : Statement .psample := by
  simp [Statement, encode, commandTransaction, writes, target, decode_wellFormed]

theorem clear : Statement .clear := by simp [Statement, encode, commandTransaction, writes, target, decode_wellFormed]

theorem latency : Statement .latency := by
  simp [Statement, encode, commandTransaction, writes, target, decode_wellFormed]

theorem design : Statement .design := by simp [Statement, encode, commandTransaction, writes, target, decode_wellFormed]

end Sys2Proof.Laws.TransactionFields
end

