-- ==== Sys2Proof/Laws/Transcendental.lean ====
section
/-! SUPPORT. What the functions of `TRANSC` can answer (40_numerics R66). -/

namespace Sys2Proof.Machine

/-- `settle` answers the lower end at some precision. -/
theorem settle_eq (ends : Nat → F64 × F64) (fuel p : Nat) : ∃ q, settle ends fuel p = (ends q).1 := by
  induction fuel generalizing p with
  | zero => exact ⟨p, rfl⟩
  | succ fuel ih =>
    rw [settle]
    split
    · exact ⟨p, rfl⟩
    · exact ih (2 * p)

/-- `choose` answers a member of the list, or `last` where there is none. -/
theorem choose_cases (choice : Nat) (values : List F64) (last : F64) :
    choose choice values last ∈ values ∨ (values = [] ∧ choose choice values last = last) := by
  cases values with
  | nil => exact .inr ⟨rfl, rfl⟩
  | cons v vs =>
    have h : choice % (v :: vs).length < (v :: vs).length := Nat.mod_lt _ (Nat.succ_pos _)
    refine .inl ?_
    rw [choose, List.getD_eq_getElem _ _ h]
    exact List.getElem_mem h

theorem choose_mem {values : List F64} (h : values ≠ []) (choice : Nat) (last : F64) :
    choose choice values last ∈ values :=
  (choose_cases choice values last).resolve_right (fun c => h c.1)

/-- Every member of `nearby` is accurate. -/
theorem accurate_of_mem_nearby {num den p : Nat} (h : p ∈ nearby num den) : accurate num den p = true :=
  (List.mem_filter.1 h).2

/-- No accurate pattern is above that of infinity. -/
theorem le_infBits_of_accurate {num den p : Nat} (h : accurate num den p = true) : p ≤ infBits := by
  unfold accurate at h
  split at h
  · exact Nat.le_of_eq (of_decide_eq_true h)
  · exact Nat.le_of_lt (of_decide_eq_true (Bool.and_eq_true_iff.1 h).1)

/-- A value of `unitValues` has a magnitude of at most 1. -/
theorem unitValues_cases {neg : Bool} {ps : List Nat} {v : F64} (h : v ∈ unitValues neg ps) :
    ∃ (b : Bool) (p : Nat), p ≤ oneF.toNat ∧ v = pack b p := by
  rcases List.mem_append.1 h with h | h
  · obtain ⟨p, hp, rfl⟩ := List.mem_map.1 h
    exact ⟨neg, p, of_decide_eq_true (List.mem_filter.1 hp).2, rfl⟩
  · split at h
    · exact ⟨!neg, 0, Nat.zero_le _, List.mem_singleton.1 h⟩
    · cases h

/-- The sine of a finite operand, correctly rounded, is a zero operand or has a magnitude of at most 1. -/
theorem sinRounded_cases {x : F64} (hx : isFinite x = true) :
    (isZero x = true ∧ sinRounded x = x) ∨ ∃ (b : Bool) (p : Nat), p ≤ oneF.toNat ∧ sinRounded x = pack b p := by
  unfold sinRounded
  rw [hx, Bool.not_true, if_neg Bool.false_ne_true]
  split
  · exact .inl ⟨‹_›, rfl⟩
  · obtain ⟨q, hq⟩ := settle_eq (sineEnds roundUnit (signOf x) 0 (quanta x)) 5 (firstPrecision (quanta x))
    exact .inr ⟨_, _, Nat.min_le_right _ _, hq⟩

/-- The cosine of a finite operand, correctly rounded, has a magnitude of at most 1. -/
theorem cosRounded_cases {x : F64} (hx : isFinite x = true) :
    ∃ (b : Bool) (p : Nat), p ≤ oneF.toNat ∧ cosRounded x = pack b p := by
  unfold cosRounded
  rw [hx, Bool.not_true, if_neg Bool.false_ne_true]
  obtain ⟨q, hq⟩ := settle_eq (sineEnds roundUnit false 1 (quanta x)) 5 128
  exact ⟨_, _, Nat.min_le_right _ _, hq⟩

/-- The power of ten of an operand that is no NaN has a clear sign and a magnitude of at most infinity. -/
theorem pow10Rounded_cases {x : F64} (hx : isNaN x = false) :
    ∃ p : Nat, p ≤ infBits ∧ pow10Rounded x = pack false p := by
  have hround (num den : Nat) : round64 num den ≤ infBits := Nat.min_le_right _ _
  unfold pow10Rounded
  rw [hx, if_neg Bool.false_ne_true]
  split
  · split
    · exact ⟨0, Nat.zero_le _, rfl⟩
    · exact ⟨infBits, Nat.le_refl _, rfl⟩
  · split
    · unfold pow10Whole
      split <;> exact ⟨_, hround _ _, rfl⟩
    · obtain ⟨q, hq⟩ := settle_eq (pow10Ends round64 (signOf x) (quanta x)) 5 128
      exact ⟨_, hround _ _, hq⟩

/-- No pattern that may be a power of ten is above that of infinity. -/
theorem le_infBits_of_mem_pow10Allowed {x : F64} {p : Nat} (h : p ∈ pow10Allowed x) : p ≤ infBits := by
  unfold pow10Allowed at h
  split at h
  · split at h
    · exact le_infBits_of_accurate (accurate_of_mem_nearby h)
    · exact Nat.le_of_eq (List.mem_singleton.1 h)
  · split at h
    · split at h <;> exact le_infBits_of_accurate (accurate_of_mem_nearby h)
    · exact le_infBits_of_accurate (accurate_of_mem_nearby h)

end Sys2Proof.Machine
end

