-- ==== Sys2Proof/Tests/Slice0.lean ====
section
/-! SUPPORT. Tests of one transaction each.  Expected values are the spec's: its encodings (30_encoding R45, R47, R48,
R56), its worked examples (R77, R93, R104) and rows of 95_test_vectors and 96_test_vectors, named in each comment.  The
theorems `test_meets_...` show operands that meet the hypotheses of the obligation they name. -/

namespace Sys2Proof.Tests

/- Many short kernel evaluations: one after another, not each in a thread of its own. -/
set_option Elab.async false

open Sys2Proof Sys2Proof.Machine

/-! ## Small states -/

/-- The state of an outcome that goes on. -/
def stateOf (o : Host.Outcome State Fault Refusal) : State :=
  match o with
  | .next s => s
  | _ => State.reset

/-- Whether an outcome goes on, in the given state. -/
def goesTo (o : Host.Outcome State Fault Refusal) (t : State) : Bool :=
  match o with
  | .next s => decide (s = t)
  | _ => false

/-- The Configuration of the spec's scenario (R93): Float32, 48 kHz, 6 dB, slope 1, 8 kHz. -/
def scenario (channels : Word) : Configuration where
  format := 5
  channels := channels
  sampleRate := 48000
  gainDb := 0x4018000000000000
  shelfSlope := 0x3FF0000000000000
  frequency := 0x40BF400000000000

/-- Row DS1 of 95_test_vectors. -/
def scenarioCoef : Coefs where
  b0 := 0x3FF9258FA3C030A3
  b1 := 0xBFF3FB6984A01DBA
  b2 := 0x3FDCB75D87E30C58
  a1 := 0xBFDBBEA15223B53C
  a2 := 0x3FCA3D2EAD0E1A72

/-- State S0 of 96 section 6 with a staged Configuration. -/
def staged (c : Configuration) : State := { State.reset with cfg := c }

/-- State S1 of 96 section 6: a Float32 filter of one channel. -/
def filter : State :=
  { State.reset with
    cfg := scenario 1
    status := 1
    actFormat := 5
    actChannels := 1
    coef := scenarioCoef }

/-- State S1 with the samples 0.5 and -0.25 at 0x1000, read to 0x2000 or in place (96 section 6.4). -/
def withSamples (outAddr : Word) : State :=
  { filter with
    input := ⟨0x1000, 5, 1, 2⟩
    output := ⟨outAddr, 5, 1, 2⟩
    mem := [(0x1003, 0x3F), (0x1006, 0x80), (0x1007, 0xBE)] }

/-- State S1 with a history in slot 0 (row NW14). -/
def withHistory : State :=
  { filter with hist := filter.hist.set 0 ⟨0x3FE0000000000000, 0, 0x3FE9258FA3C030A3, 0⟩ }

/-! ## WellFormed -/

/-- A WR of a command word to `CMD` is written with the command's constructor, and only that is refused. -/
theorem test_wellFormed_smoke :
    Instr.wellFormed (.wr 0x008 1) = false ∧ Instr.wellFormed (.wr 0x008 7) = false ∧
      Instr.wellFormed (.wr 0x008 0) = true ∧ Instr.wellFormed (.wr 0x008 8) = true ∧
      Instr.wellFormed (.wr 0x008 0x101) = true ∧ Instr.wellFormed (.wr 0x009 1) = true := by decide

/-! ## Decoding: words written out from R45 and R48 -/

/-- W = 1, REG = 0x001, DATA = 2 (R56: `WR CFG_CHANNELS, 2`). -/
theorem test_decode_wr :
    decode 0b10000000000010000000000000000000000000000000000000000000000000000000000000010 = .wr 0x001 2 := by decide

/-- W = 0, REG = 0x102, DATA all ones: an RD ignores DATA (R54). -/
theorem test_decode_rd :
    decode 0b00001000000101111111111111111111111111111111111111111111111111111111111111111 = .rd 0x102 := by decide

/-- W = 1, REG = 0x008, DATA = 0x01. -/
theorem test_decode_new :
    decode 0b10000000010000000000000000000000000000000000000000000000000000000000000000001 = .new := by decide

theorem test_decode_reinit :
    decode 0b10000000010000000000000000000000000000000000000000000000000000000000000000010 = .reinit := by decide

theorem test_decode_process :
    decode 0b10000000010000000000000000000000000000000000000000000000000000000000000000011 = .process := by decide

theorem test_decode_psample :
    decode 0b10000000010000000000000000000000000000000000000000000000000000000000000000100 = .psample := by decide

theorem test_decode_clear :
    decode 0b10000000010000000000000000000000000000000000000000000000000000000000000000101 = .clear := by decide

theorem test_decode_latency :
    decode 0b10000000010000000000000000000000000000000000000000000000000000000000000000110 = .latency := by decide

theorem test_decode_design :
    decode 0b10000000010000000000000000000000000000000000000000000000000000000000000000111 = .design := by decide

/-- Words to `CMD` that name no command, by name (rows A8, A9, A10, A11, A12, A13). -/
theorem test_decode_rejects :
    decodeCommand 0 = .error .unknownOpcode ∧ decodeCommand 8 = .error .unknownOpcode ∧
      decodeCommand 0xFF = .error .unknownOpcode ∧ decodeCommand 0x101 = .error .reservedBits ∧
      decodeCommand 0x100 = .error .reservedBits ∧ decodeCommand 0x8000000000000006 = .error .reservedBits := by decide

/-- Rows of the opcode table, as the host numbers their bits. -/
theorem test_decodeTableWord :
    decodeTableWord 64 0x07 = some .design ∧ decodeTableWord 64 0x08 = none ∧
      decodeTableWord 80 0x10080000000000000003 = some .process ∧
      decodeTableWord 80 0x00090000000000000000 = some (.rd 0x009) := by decide

/-- A row's instruction runs as the very next step: LATENCY leaves 1 in `RETVAL` (row A5). -/
theorem test_withFetchWord :
    goesTo (step (State.reset.withFetchWord 64 0x06)) (stateOf (exec .latency State.reset)) = true ∧
      (stateOf (step (State.reset.withFetchWord 64 0x06))).retval = 1 := by decide +kernel

/-! ## Transactions and commands -/

/-- Rows V8 and V10: a WR to `STATUS` is ignored; a NaN written to `CFG_GAIN_DB` keeps its payload. -/
theorem test_wr :
    goesTo (exec (.wr 0x00A 7) filter) filter = true ∧
      (stateOf (exec (.wr 0x003 0xFFF8000000000123) filter)).readNumber 0x003 = 0xFFF8000000000123 := by decide +kernel

/-- Row A11: 0x101 fails with RESERVED_BITS although its low byte names NEW. -/
theorem test_wr_command_word :
    goesTo (exec (.wr 0x008 0x101) State.reset) { State.reset with cmd := 0x101, result := 0x0F02 } = true := by decide +kernel

/-- Row V9 and R14: an unmapped number reads 0, `H[0].y1` is register 0x102. -/
theorem test_rd :
    goesTo (exec (.rd 0x180) withHistory) { withHistory with returned := [0] } = true ∧
      goesTo (exec (.rd 0x102) withHistory) { withHistory with returned := [0x3FE9258FA3C030A3] } = true := by decide +kernel

/-- R112's example: `CONFIG 5, 1, 48000, 6.0, 1.0, 8000.0` then NEW; the coefficients are row DS1. -/
theorem test_new : goesTo (exec .new (staged (scenario 1))) { filter with cmd := 1 } = true := by decide +kernel

/-- Row NW6: channels are checked before the sample rate. -/
theorem test_new_fails_in_order :
    (stateOf (exec .new (staged { scenario 33 with sampleRate := 0 }))).result = 0x0301 := by decide +kernel

/-- Row I3 and NW14's history: one more channel keeps slot 0 and starts slot 1 from zero. -/
theorem test_reinit_grows :
    let t := stateOf (exec .reinit { withHistory with cfg := scenario 2 })
    t.result = 0 ∧ t.actChannels = 2 ∧ t.slot 0 = withHistory.slot 0 ∧ t.slot 1 = ⟨0, 0, 0, 0⟩ := by decide +kernel

/-- Row M1: the output bytes `7D 2C 49 3F 8F 3B 2D BF`, read little-endian. -/
theorem test_process :
    let t := stateOf (exec .process (withSamples 0x2000))
    t.result = 0 ∧ Memory.load t.mem 0x2000 8 = 0xBF2D3B8F3F492C7D ∧ Memory.load t.mem 0x1000 8 = 0xBE8000003F000000 := by
  decide +kernel

/-- Row M16: an output that starts inside the input is refused. -/
theorem test_process_overlap : (stateOf (exec .process (withSamples 0x1004))).result = 0x0D01 := by decide +kernel

/-- Row V1. -/
theorem test_psample :
    let t := stateOf (exec .psample { filter with psX := 0x3FE0000000000000 })
    t.result = 0 ∧ t.psY = 0x3FE9258FA3C030A3 ∧ t.hist = withHistory.hist := by decide +kernel

/-- Row V5: a signalling NaN in `PS_X` is data, and enters the history as the canonical NaN. -/
theorem test_psample_nan :
    let t := stateOf (exec .psample { filter with psX := 0x7FF0000000000001 })
    t.result = 0 ∧ t.psY = 0x7FF8000000000000 ∧ t.slot 0 = ⟨0x7FF8000000000000, 0, 0x7FF8000000000000, 0⟩ ∧
      t.psX = 0x7FF0000000000001 := by decide +kernel

/-- Row V7: CLEAR zeroes the history and nothing else. -/
theorem test_clear : goesTo (exec .clear withHistory) { filter with cmd := 5 } = true := by decide +kernel

/-- Row V11: DESIGN reads neither the format nor the channel count; `DSN_*` are row DS1. -/
theorem test_design :
    goesTo (exec .design (staged { scenario 0 with format := 0 }))
      { staged { scenario 0 with format := 0 } with cmd := 7, dsn := scenarioCoef } = true := by decide +kernel

/-- Row X23 (R92): inputs that pass the checks and have no finite design. -/
theorem test_design_nonfinite :
    (stateOf (exec .design (staged { scenario 1 with gainDb := 0x4038000000000000, shelfSlope := 0x4000000000000000 }))).result =
      0x0801 := by decide +kernel

/-! ## Functions -/

/-- R93: the intermediates of the scenario. -/
theorem test_designer_intermediates :
    angularFrequency 48000 0x40BF400000000000 = 0x3FF0C152382D7365 ∧
      sin64 .correctlyRounded 0x3FF0C152382D7365 = 0x3FEBB67AE8584CAA ∧
      cos64 .correctlyRounded 0x3FF0C152382D7365 = 0x3FE0000000000001 ∧
      amplitude .correctlyRounded 0x4018000000000000 = 0x3FF699C0F7E86E10 ∧
      slopeRoot 0x3FF699C0F7E86E10 oneF = 0x3FF6A09E667F3BCD ∧
      shelfBeta 0x3FEBB67AE8584CAA 0x3FF699C0F7E86E10 oneF = 0x3FF74A2FD10B2969 ∧
      rawShelf 0x3FF699C0F7E86E10 0x3FE0000000000001 0x3FF74A2FD10B2969 =
        (⟨0x4017056532F16096, 0xC0124B01E40AAF01, 0x3FFA49F4B43615C9, 0xBFF9663F081791F2, 0x3FE8056155D21B3E⟩,
          0x400D4B88267FB038) := by decide +kernel

/-- R104, steps 0 and 4. -/
theorem test_biquad_step :
    let k : Coefs := ⟨0x3FE0000000000000, 0x3FD0000000000000, 0x3FC0000000000000, 0xBFE0000000000000, 0x3FD0000000000000⟩
    biquadStep k ⟨0, 0, 0, 0⟩ 0x3FF0000000000000 = (0x3FE0000000000000, ⟨0x3FF0000000000000, 0, 0x3FE0000000000000, 0⟩) ∧
      biquadStep k ⟨0, 0, 0, 0x3FD0000000000000⟩ 0 = (0xBFB0000000000000, ⟨0, 0, 0xBFB0000000000000, 0⟩) := by
  decide +kernel

/-- R77, the calls of `decode`. -/
theorem test_decodeSample :
    decodeSample 0x00 .unsigned8 = 0xBFF0000000000000 ∧ decodeSample 0x80 .unsigned8 = 0 ∧
      decodeSample 0xFF .unsigned8 = 0x3FEFC00000000000 ∧ decodeSample 0x8000 .signed16 = 0xBFF0000000000000 ∧
      decodeSample 0x7FFF .signed16 = 0x3FEFFFC000000000 ∧ decodeSample 0xFFFFFF .signed24 = 0xBE80000000000000 ∧
      decodeSample 0x3F000000 .float32 = 0x3FE0000000000000 := by decide +kernel

/-- R77, the calls of `encode`. -/
theorem test_encodeSample :
    encodeSample 0x3FE0000000000000 .signed16 = 0x4000 ∧ encodeSample 0x3FF0000000000000 .signed16 = 0x7FFF ∧
      encodeSample 0xBFF8000000000000 .signed16 = 0x8000 ∧ encodeSample 0x3EF0000000000000 .signed16 = 0x0000 ∧
      encodeSample 0x3F08000000000000 .signed16 = 0x0002 ∧ encodeSample nan64 .signed16 = 0x0000 ∧
      encodeSample nan64 .unsigned8 = 0x80 ∧ encodeSample 0x3FB999999999999A .float32 = 0x3DCCCCCD ∧
      encodeSample 0x48078287F49C4A1D .float32 = 0x7F800000 := by decide +kernel

/-! ## Operands that meet the hypotheses of the obligations -/

/-- A state whose next host action is `a`. -/
def withAction (a : HostAction) : State := { withHistory with script := [a] }

theorem test_meets_EncodedInstructionDecodesBack :
    Instr.wellFormed (.wr 0xFFF 0xFFFFFFFFFFFFFFFF) = true ∧ Instr.wellFormed (.wr 0x008 8) = true ∧
      Instr.wellFormed (.rd 0x008) = true ∧ Instr.wellFormed .design = true := by decide

theorem test_meets_OpcodeMapNamesSevenCommands :
    (∃ b : Nat, b = 0) ∧ (∃ b : Nat, 8 ≤ b ∧ b ≤ 8) ∧ (∃ b : Nat, 255 ≤ b ∧ b ≤ 255) :=
  ⟨⟨0, rfl⟩, ⟨8, by decide⟩, ⟨255, by decide⟩⟩

theorem test_meets_CommandWordIsExecuted :
    (0x100 : Word).extractLsb' 8 56 ≠ 0 ∧ (0x8000000000000006 : Word).extractLsb' 8 56 ≠ 0 ∧
      (∀ b : Fin 256, (BitVec.ofNat 64 b.val).extractLsb' 8 56 = 0) ∧
      (1 : Word).extractLsb' 0 8 = 1 ∧ (2 : Word).extractLsb' 0 8 = 2 ∧ (3 : Word).extractLsb' 0 8 = 3 ∧
      (4 : Word).extractLsb' 0 8 = 4 ∧ (5 : Word).extractLsb' 0 8 = 5 ∧ (6 : Word).extractLsb' 0 8 = 6 ∧
      (7 : Word).extractLsb' 0 8 = 7 ∧ (0 : Word).extractLsb' 0 8 = 0 ∧ 8 ≤ ((8 : Word).extractLsb' 0 8).toNat ∧
      8 ≤ ((255 : Word).extractLsb' 0 8).toNat := by decide +kernel

theorem test_meets_StepRunsTheNextTransaction :
    (withAction (.transaction 0x10080000000000000004)).script = .transaction 0x10080000000000000004 :: [] := rfl

theorem test_meets_HostStoresAndIdleSteps :
    (withAction (.store 0xFFFFFFFF 7)).script = .store 0xFFFFFFFF 7 :: [] ∧ 0xFFFFFFFF < 2 ^ withHistory.params.addrWidth ∧
      (withAction (.store 0x100000000 7)).script = .store 0x100000000 7 :: [] ∧
      2 ^ withHistory.params.addrWidth ≤ 0x100000000 ∧ State.reset.script = [] := by decide +kernel

theorem test_meets_ResetEventZeroesEveryRegister : (withAction .reset).script = .reset :: [] := rfl

theorem test_meets_ResetLeavesEveryRegisterZero :
    ∃ t, exec .new { withHistory.resetEvent with cfg := scenario 1 } = .next t ∧ t.result = 0 :=
  ⟨_, rfl, by decide +kernel⟩

theorem test_meets_ResetStateHasTheDefaultParameters : 0xFFFFFFFF < 2 ^ 32 := by decide

theorem test_meets_EveryStepKeepsRegisterInvariants :
    (withAction (.transaction 0x10080000000000000004)).registersInv = true ∧
      ∃ t, step (withAction (.transaction 0x10080000000000000004)) = .next t ∧ t.result = 0 :=
  ⟨by decide +kernel, _, rfl, by decide +kernel⟩

theorem test_meets_EveryStepKeepsMemoryFormAndParameters :
    ∃ t, step { withSamples 0x2000 with script := [.store 0x1003 0] } = .next t ∧
      Memory.wf (withSamples 0x2000).mem = true ∧ Memory.read t.mem 0x1003 = 0 :=
  ⟨_, rfl, by decide +kernel, by decide +kernel⟩

theorem test_meets_WrStoresReadWriteRegistersOnly :
    (0x005 : RegNum) ≠ 0x008 ∧ (0x006 : RegNum) ≠ 0x008 ∧ (0x00E : RegNum) ≠ 0x008 ∧ (0x017 : RegNum) ≠ 0x008 ∧
      (0x018 : RegNum) ≠ 0x008 ∧ (0x17F : RegNum) ≠ 0x008 := by decide

theorem test_meets_HistoryRegistersAreNumberedAndReadOnly :
    State.reset.maxChannels ≤ 960 ∧ 0 < State.reset.maxChannels ∧ 31 < State.reset.maxChannels ∧ 3 < 4 := by decide

theorem test_meets_UnmappedNumbersReadZeroAndIgnoreWrites :
    0x018 ≤ (0x018 : RegNum).toNat ∧ (0x01F : RegNum).toNat ≤ 0x01F ∧ 0x022 ≤ (0x022 : RegNum).toNat ∧
      (0x027 : RegNum).toNat ≤ 0x027 ∧ 0x02D ≤ (0x02D : RegNum).toNat ∧ (0x02F : RegNum).toNat ≤ 0x02F ∧
      0x035 ≤ (0x035 : RegNum).toNat ∧ (0x0FF : RegNum).toNat ≤ 0x0FF ∧
      0x100 + 4 * State.reset.maxChannels ≤ (0x180 : RegNum).toNat := by decide

theorem test_meets_FailedCommandChangesOnlyCmdAndResult :
    (∃ t, exec (.wr 0x008 0x101) filter = .next t ∧ resultCode t.result ≠ 0) ∧
      ∃ t, exec (.wr 0x008 3) filter = .next t ∧ resultCode t.result ≠ 0 :=
  ⟨⟨_, rfl, by decide +kernel⟩, ⟨_, rfl, by decide +kernel⟩⟩

theorem test_meets_ResultHoldsTheLatestCommandsOutcome :
    (∃ t, exec (.wr 0x008 4) filter = .next t ∧ t.result = 0) ∧
      (0x000 : RegNum) ≠ 0x008 ∧ (∃ t, exec (.wr 0x000 9) filter = .next t) ∧ ∃ t, exec (.rd 0x009) filter = .next t :=
  ⟨⟨_, rfl, by decide +kernel⟩, by decide, ⟨_, rfl⟩, ⟨_, rfl⟩⟩

/-- The scenario passes every check of NEW and of DESIGN. -/
theorem test_scenario_passes :
    NoneFails (staged (scenario 1)).designChecks ∧ NoneFails (staged (scenario 1)).newChecks ∧
      NoneFails (staged (scenario 32)).newChecks := by
  simp only [NoneFails, State.newChecks, State.designChecks, designCheckList]
  decide +kernel

/-- Failures at the first, a middle and the last check of NEW (rows A7, NW5, NW13, X2). -/
theorem test_scenario_fails :
    FirstFailing State.reset.newChecks .badFormat ∧ FirstFailing (staged (scenario 33)).newChecks .badChannels ∧
      FirstFailing (staged { scenario 1 with gainDb := 0x4038000000000000, shelfSlope := 0x4000000000000000 }).newChecks
        .nonfiniteCoef ∧
      FirstFailing (staged { scenario 1 with sampleRate := 4294967296 }).designChecks .badSampleRate := by
  refine ⟨.inl ⟨?_, rfl⟩, .inr ⟨?_, .inl ⟨?_, rfl⟩⟩,
    .inr ⟨?_, .inr ⟨?_, .inr ⟨?_, .inr ⟨?_, .inr ⟨?_, .inr ⟨?_, .inl ⟨?_, rfl⟩⟩⟩⟩⟩⟩⟩, .inl ⟨?_, rfl⟩⟩ <;> decide +kernel

theorem test_meets_FirstFailingCheckIsReported :
    256 ≤ (0x100 : Word).toNat ∧ (0 : Word).toNat = 0 ∧ 8 ≤ (8 : Word).toNat ∧ (255 : Word).toNat < 256 ∧
      filter.filterInv = true ∧ NoneFails (filter.checksOf .clear) ∧
      FirstFailing (State.reset.checksOf .process) .notReady ∧ FirstFailing (State.reset.checksOf .new) .badFormat := by
  refine ⟨by decide, by decide, by decide, by decide, by decide +kernel, ?_, ?_, test_scenario_fails.1⟩
  · exact ⟨by decide +kernel, trivial⟩
  · exact .inl ⟨by decide +kernel, rfl⟩

theorem test_meets_ReadyIsSetBySuccessfulNewOnly :
    ∃ t, exec .new (staged (scenario 1)) = .next t ∧ t.status ≠ (staged (scenario 1)).status ∧ t.result = 0 ∧
      (staged (scenario 1)).status.toNat / 2 = 0 :=
  ⟨_, rfl, by decide +kernel, by decide +kernel, by decide⟩

theorem test_meets_OnlyTheNamedCommandsWriteReadOnlyState :
    (∃ t, exec .new (staged (scenario 1)) = .next t ∧ t.coef ≠ State.reset.coef ∧ t.actFormat ≠ State.reset.actFormat) ∧
      (∃ t, exec .design (staged (scenario 1)) = .next t ∧ t.dsn ≠ State.reset.dsn) ∧
      (∃ t, exec .psample { filter with psX := oneF } = .next t ∧ t.psY ≠ filter.psY ∧ t.hist ≠ filter.hist) ∧
      (∃ t, exec .latency State.reset = .next t ∧ t.retval ≠ State.reset.retval) ∧
      ∃ t, exec .process (withSamples 0x2000) = .next t ∧ t.mem ≠ (withSamples 0x2000).mem :=
  ⟨⟨_, rfl, by decide +kernel⟩, ⟨_, rfl, by decide +kernel⟩, ⟨_, rfl, by decide +kernel⟩, ⟨_, rfl, by decide +kernel⟩,
    ⟨_, rfl, by decide +kernel⟩⟩

theorem test_meets_CommandsStraightAfterReset :
    NoneFails ({ State.reset.resetEvent with cfg := scenario 1 } : State).designChecks := test_scenario_passes.1

theorem test_meets_ClearZeroesTheHistory : withHistory.ready = true ∧ State.reset.ready = false := by decide

theorem test_meets_PsampleStepsOneChannel :
    State.reset.ready = false ∧ filter.ready = true ∧ filter.actChannels.toNat ≤ (1 : Word).toNat ∧
      (0 : Word).toNat < filter.actChannels.toNat ∧ filter.actChannels.toNat ≤ filter.maxChannels := by decide +kernel

theorem test_meets_FirstOutputIsTheFirstProduct :
    scenarioCoef.finite = true ∧ isFinite oneF = true ∧ isZero (fmul scenarioCoef.b0 oneF) = false ∧
      isZero (fmul scenarioCoef.b0 0) = true ∧ Coefs.finite ⟨oneF, 0, 0, 0, 0⟩ = true ∧ isZero oneF = false := by
  decide +kernel

theorem test_meets_NanInTheHistoryStays :
    isNaN (⟨0, 0, nan64, 0⟩ : Slot).y1 = true ∧ isNaN (⟨0, 0, 0, 0x7FF0000000000001⟩ : Slot).y2 = true ∧
      isNaN (0xFFF8000000000001 : F64) = true ∧ isNaN (⟨nan64, 0, 0, 0⟩ : Slot).x1 = true ∧
      isNaN (⟨0, nan64, 0, 0⟩ : Slot).x2 = true := by decide +kernel

theorem test_meets_DesignCheckedFollowsItsChecks :
    NoneFails (designCheckList .correctlyRounded 48000 0x4018000000000000 oneF 0x40BF400000000000) ∧
      FirstFailing (designCheckList .correctlyRounded 0 0 0 0) .badSampleRate ∧
      FirstFailing (designCheckList .correctlyRounded 48000 0x7FF0000000000000 oneF 0x40BF400000000000) .badGain ∧
      ∃ k, designChecked .correctlyRounded 48000 0x4018000000000000 oneF 0x40BF400000000000 = .ok k := by
  have h1 : checkDesign 48000 0x4018000000000000 oneF 0x40BF400000000000 = none := by decide +kernel
  have h2 : (design .correctlyRounded 48000 0x4018000000000000 oneF 0x40BF400000000000).finite = true := by
    decide +kernel
  refine ⟨test_scenario_passes.1, .inl ⟨by decide, rfl⟩, .inr ⟨?_, .inr ⟨?_, .inr ⟨?_, .inl ⟨?_, rfl⟩⟩⟩⟩,
    design .correctlyRounded 48000 0x4018000000000000 oneF 0x40BF400000000000, ?_⟩
  · decide
  · decide +kernel
  · decide +kernel
  · decide +kernel
  · simp only [designChecked, h1, checkFinite, h2, if_true]

theorem test_meets_DesignWritesDesignerOutputsOnly :
    NoneFails (staged (scenario 1)).designChecks ∧
      FirstFailing (staged { scenario 1 with sampleRate := 4294967296 }).designChecks .badSampleRate :=
  ⟨test_scenario_passes.1, test_scenario_fails.2.2.2⟩

theorem test_meets_ZeroGainGivesTheIdentityFilter :
    checkDesign 48000 0x8000000000000000 oneF 0x40BF400000000000 = none ∧ isZero (0x8000000000000000 : F64) = true ∧
      isFinite (cos64 .correctlyRounded (angularFrequency 48000 0x40BF400000000000)) = true ∧
      isZero (cos64 .correctlyRounded (angularFrequency 48000 0x40BF400000000000)) = false ∧
      isFinite (shelfBeta (sin64 .correctlyRounded (angularFrequency 48000 0x40BF400000000000)) oneF oneF) = true ∧
      signOf (shelfBeta (sin64 .correctlyRounded (angularFrequency 48000 0x40BF400000000000)) oneF oneF) = false := by
  decide +kernel

theorem test_meets_EveryTranscHasItsNamedProperties :
    isNaN (0x7FF0000000000001 : F64) = true ∧ isInf (0xFFF0000000000000 : F64) = true ∧
      isFinite (0x7FEFFFFFFFFFFFFF : F64) = true ∧ isNaN (0xFFF0000000000000 : F64) = false := by decide

theorem test_meets_OtherTranscValuesAreAccurate :
    0 < 1 ∧ isFinite (0 : F64) = true ∧ isFinite oneF = true ∧ isZero oneF = false := by decide

/-- T-ACC by hand: below 1 the unit halves, so `1 - 2^-53` exactly is near itself and 1, while 1 is near itself alone;
`10^400` overflows, `10^-400` is near 0 and the smallest subnormal; `sin 0` is a zero of either sign; the sine of R93. -/
theorem test_allowed_values :
    nearby (2 ^ 1074 - 2 ^ 1021) 1 = [0x3FEFFFFFFFFFFFFF, 0x3FF0000000000000] ∧
      nearby (2 ^ 1074) 1 = [0x3FF0000000000000] ∧ pow10Allowed 0x4079000000000000 = [infBits] ∧
      pow10Allowed 0xC079000000000000 = [0, 1] ∧ sinAllowed 0 = [0, 0x8000000000000000] ∧
      0x3FEBB67AE8584CAA ∈ sinAllowed 0x3FF0C152382D7365 := by decide +kernel

/-- T-NAN and T-ONE fix these values for every instance. -/
theorem test_other_transc (id : Nat) :
    sin64 (.other id) 0x7FF0000000000001 = nan64 ∧ cos64 (.other id) 0xFFF0000000000000 = nan64 ∧
      pow10 (.other id) 0x8000000000000000 = oneF ∧ pow10 (.other id) 0xFFF0000000000000 = 0 := by
  have h1 : isFinite 0x7FF0000000000001 = false := by decide
  have h2 : isFinite 0xFFF0000000000000 = false := by decide
  have h3 : isZero 0x8000000000000000 = true := by decide
  have h4 : pow10Rounded 0x8000000000000000 = oneF ∧ pow10Rounded 0xFFF0000000000000 = 0 := by decide +kernel
  simp only [sin64, sinOther, cos64, cosOther, pow10, pow10Other, h1, h2, h3, Bool.not_false, Bool.or_true, Bool.true_or,
    if_true, true_and]
  exact h4

theorem test_meets_NewConstructsTheFilter :
    NoneFails (staged (scenario 32)).newChecks ∧ FirstFailing (staged (scenario 33)).newChecks .badChannels :=
  ⟨test_scenario_passes.2.2, test_scenario_fails.2.1⟩

theorem test_meets_ReinitRedesignsAndKeepsHistory :
    withHistory.ready = true ∧ NoneFails withHistory.newChecks ∧ 31 < withHistory.hist.length ∧
      State.reset.ready = false ∧ { withHistory with cfg := scenario 33 }.ready = true ∧
      FirstFailing { withHistory with cfg := scenario 33 }.newChecks .badChannels :=
  ⟨by decide, test_scenario_passes.2.1, by decide +kernel, by decide, by decide, test_scenario_fails.2.1⟩

theorem test_meets_ReinitWithSameChannelsKeepsAllHistory :
    withHistory.unusedSlotsInv = true ∧ withHistory.cfg.channels = withHistory.actChannels ∧
      ∃ t, exec .reinit withHistory = .next t ∧ t.result = 0 :=
  ⟨by decide +kernel, by decide, _, rfl, by decide +kernel⟩

/-- Every address of 32 bits is in the default regions. -/
theorem test_default_regions (lo hi : Nat) (h : hi ≤ 4294967296) :
    WithinRegions Params.default.readable lo hi ∧ WithinRegions Params.default.writable lo hi := by
  constructor <;> intro a _ ha <;> exact ⟨⟨0, 4294967296⟩, List.mem_singleton.2 rfl, Nat.zero_le _, by simp; omega⟩

/-- Two buffers (row M1) and one buffer (row M21) pass every check of PROCESS. -/
theorem test_buffers_pass :
    NoneFails (withSamples 0x2000).processCheckList ∧ NoneFails (withSamples 0x1000).processCheckList := by
  constructor <;>
  · refine ⟨by decide, by decide, by decide, by decide, ?_, by decide, trivial⟩
    rintro (h | h) <;> refine h ⟨by decide, ?_⟩
    · exact (test_default_regions _ _ (by decide)).1
    · exact (test_default_regions _ _ (by decide)).2

theorem test_meets_ProcessRunsEveryChannelsStream :
    (withSamples 0x2000).filterInv = true ∧ Memory.wf (withSamples 0x2000).mem = true ∧
      NoneFails (withSamples 0x2000).processCheckList ∧ (withSamples 0x1000).filterInv = true ∧
      NoneFails (withSamples 0x1000).processCheckList ∧
      formatOfTag (withSamples 0x2000).actFormat = some .float32 ∧ 1 < (withSamples 0x2000).input.frames.toNat ∧
      0 < (withSamples 0x2000).actChannels.toNat :=
  ⟨by decide +kernel, by decide, test_buffers_pass.1, by decide +kernel, test_buffers_pass.2, by decide, by decide,
    by decide⟩

theorem test_meets_InPlaceEqualsSeparateBuffers :
    ∃ t u, (withSamples 0x1000).filterInv = true ∧ Memory.wf (withSamples 0x1000).mem = true ∧
      (withSamples 0x1000).input.addr = (withSamples 0x1000).output.addr ∧
      (withSamples 0x1000).input.addr.toNat + (withSamples 0x1000).nbytes ≤ (0x1008 : Word).toNat ∧
      exec .process (withSamples 0x1000) = .next t ∧ t.result = 0 ∧
      exec .process { withSamples 0x1000 with
        output := { (withSamples 0x1000).output with addr := 0x1008 }
        mem := (withSamples 0x1000).mem } = .next u ∧ u.result = 0 :=
  ⟨_, _, by decide +kernel, by decide, rfl, by decide, rfl, by decide +kernel, rfl, by decide +kernel⟩

theorem test_meets_ProcessSplitsIntoConsecutiveProcesses :
    ∃ t u v, Params.Legal (withSamples 0x2000).maxChannels (withSamples 0x2000).params ∧
      (withSamples 0x2000).filterInv = true ∧ Memory.wf (withSamples 0x2000).mem = true ∧
      (withSamples 0x2000).input.frames.toNat = 1 + 1 ∧
      exec .process (withSamples 0x2000) = .next t ∧ t.result = 0 ∧
      exec .process ((withSamples 0x2000).withBuffers 0x1000 0x2000 1) = .next u ∧
      exec .process (u.withBuffers (0x1000 + 1 * 1 * 4) (0x2000 + 1 * 1 * 4) 1) = .next v :=
  ⟨_, _, _, by decide, by decide +kernel, by decide, rfl, rfl, by decide +kernel, rfl, rfl⟩

/-- Rows M22 to M24: no frames, with the output address at most `2^32`, at it, and above it. -/
theorem test_meets_ProcessOfZeroFramesTouchesNothing :
    let s (a : Word) : State := { filter with input := ⟨0x1000, 5, 1, 0⟩, output := ⟨a, 5, 1, 0⟩ }
    (s 0x1004).filterInv = true ∧ (s 0x1004).ready = true ∧ (s 0x1004).input.format = (s 0x1004).actFormat ∧
      (s 0x1004).output.channels = (s 0x1004).actChannels ∧ (s 0x1004).input.frames = 0 ∧
      (s 0x100000000).output.addr.toNat ≤ 2 ^ (s 0x100000000).params.addrWidth ∧
      2 ^ (s 0x100000001).params.addrWidth < (s 0x100000001).output.addr.toNat := by decide +kernel

theorem test_meets_ProcessFrame :
    ∃ t, Memory.wf (withSamples 0x2000).mem = true ∧ exec .process (withSamples 0x2000) = .next t ∧ t.result = 0 ∧
      (withSamples 0x2000).actChannels.toNat ≤ 1 :=
  ⟨_, by decide, rfl, by decide +kernel, by decide⟩

theorem test_meets_StagingHasNoRetroactiveEffect :
    (∃ t, exec .psample filter = .next t) ∧ (∃ t, exec .clear filter = .next t) ∧ ∃ t, exec .latency filter = .next t :=
  ⟨⟨_, rfl⟩, ⟨_, rfl⟩, ⟨_, rfl⟩⟩

theorem test_meets_SamplesAreLittleEndian :
    Memory.wf (withSamples 0x2000).mem = true ∧ 2 < 3 ∧ 0x1FFF < 0x2000 ∧ 0x2000 + 3 ≤ 0x2003 := by decide

/-- A tie, an overflow, and a neighbour of the result. -/
theorem test_meets_RoundingIsToNearestEven :
    0 < 2 ∧ round64 1 2 < infBits ∧ 1 < infBits ∧ 1 ≠ round64 1 2 ∧ distanceTo 52 1 2 (round64 1 2) = distanceTo 52 1 2 1 ∧
      1 * ((2 ^ 54 - 1) * 2 ^ 2044) ≤ 2 ^ 2098 ∧ round32 1 2 < infBits32 ∧ 1 ≠ round32 1 2 ∧
      1 * ((2 ^ 25 - 1) * 2 ^ 252) ≤ 2 ^ 277 ∧ isFinite oneF = true ∧ isInf (infOf true) = true ∧ isNaN nan64 = true := by
  decide +kernel

theorem test_meets_AdditionRoundsTheExactSum :
    isFinite oneF = true ∧ signedQuanta oneF + signedQuanta minusTwoF ≠ 0 ∧ isZero oneF = false ∧
      isInf (infOf true) = true ∧ isInf (infOf false) = true ∧ signOf (infOf true) ≠ signOf (infOf false) := by
  decide +kernel

theorem test_meets_MultiplicationRoundsTheExactProduct :
    isFinite oneF = true ∧ isInf (infOf true) = true ∧ isInf (fmul (infOf true) oneF) = true ∧
      isZero (fmul 0 minusTwoF) = true ∧ isZero (0x8000000000000000 : F64) = true ∧ quanta twoF = 2 ^ 1075 ∧
      2 ^ 52 * 2 ^ 1074 ≤ quanta oneF * quanta twoF ∧ isFinite (fmul oneF twoF) = true := by decide +kernel

theorem test_meets_DivisionRoundsTheExactQuotient :
    isFinite oneF = true ∧ isZero oneF = false ∧ isZero (0 : F64) = true ∧ isInf (infOf true) = true := by
  decide +kernel

theorem test_meets_SquareRootIsNearest :
    isFinite (1 : F64) = true ∧ isZero (1 : F64) = false ∧ signOf (1 : F64) = false ∧
      signOf (0xFFF0000000000000 : F64) = true ∧ isZero (0xFFF0000000000000 : F64) = false := by decide +kernel

theorem test_meets_ComparisonsOrderValues :
    isNaN (infOf true) = false ∧ isNaN (0x8000000000000000 : F64) = false ∧ isFinite (0x8000000000000000 : F64) = true ∧
      isNaN (0x7FF0000000000001 : F64) = true := by decide

theorem test_meets_NanResultsAreCanonicalAndInfinitiesStay :
    isNaN (0xFFF0000000000001 : F64) = true ∧ isNaN (fadd (infOf true) (infOf false)) = true ∧
      isNaN (fsub (infOf true) (infOf true)) = true ∧ isNaN (fmul 0 (infOf true)) = true ∧
      isNaN (fdiv 0 0) = true ∧ isNaN (fsqrt minusTwoF) = true ∧ isNaN (fneg nan64) = true ∧
      isNaN (f64OfF32 0xFF800001) = true ∧ isInf (infOf true) = true ∧ isFinite (0 : F64) = true ∧ isZero oneF = false ∧
      isInf (0xFFF0000000000000 : F64) = true ∧ signOf (0xFFF0000000000000 : F64) = signOf (infOf true) := by
  decide +kernel

theorem test_meets_DecodingIsExact :
    255 < 2 ^ 8 ∧ Format.signed24 ≠ .unsigned8 ∧ Format.signed24 ≠ .float32 ∧ 0xFFFFFF < 256 ^ Format.signed24.bytes ∧
      4294967295 ≤ 2 ^ 32 - 1 ∧ -(2 : Int) ^ 31 ≤ -2147483648 ∧ 0xFF7FFFFF % 2 ^ 31 < 0x7F800000 ∧
      0xFF800000 % 2 ^ 31 = 0x7F800000 ∧ 0x7F800000 < 0xFF800001 % 2 ^ 31 := by
  decide

theorem test_meets_QuantizerClampsTheNearestInteger :
    isNaN nan64 = true ∧ isInf (infOf true) = true ∧ isFinite (0x3EF0000000000000 : F64) = true ∧
      2 * |(0 : Int) * 2 ^ 1074 - signedQuanta 0x3EF0000000000000 * 2 ^ (16 - 1)| = 2 ^ 1074 ∧ (0 : Int) % 2 = 0 := by
  decide +kernel

theorem test_meets_RawSamplesRoundTrip :
    0xFFFFFF < 256 ^ Format.signed24.bytes ∧ 0xFF800000 < 256 ^ Format.float32.bytes ∧
      0xFF800000 % 2 ^ 31 ≤ 0x7F800000 ∧ 0xFF800001 < 2 ^ 32 ∧ 0x7F800000 < 0xFF800001 % 2 ^ 31 := by decide

theorem test_meets_IntegerEncodingSaturates :
    fge 0x3FF0000000000000 0x3FF0000000000000 = true ∧ fge (infOf false) 0x3FF0000000000000 = true ∧
      fle 0xBFF0000000000000 0xBFF0000000000000 = true ∧ fle (infOf true) 0xBFF0000000000000 = true ∧
      isNaN nan64 = true := by decide +kernel

theorem test_meets_EncodingNeverInvertsSign :
    Format.signed32 ≠ .float32 ∧ fge (0x8000000000000000 : F64) 0 = true ∧ fle (infOf true) 0 = true := by decide +kernel

theorem test_meets_EncodingIsMonotonic : fle (infOf true) 0 = true ∧ fle oneF twoF = true := by decide +kernel

theorem test_meets_EncodingErrorIsHalfAStep :
    Format.signed16 ≠ .float32 ∧ isFinite (0xBFF0000000000000 : F64) = true ∧
      -(2 : Int) ^ 1074 ≤ signedQuanta 0xBFF0000000000000 ∧
      signedQuanta 0x3FEFFFC000000000 ≤
        ((2 : Int) ^ (8 * Format.signed16.bytes - 1) - 1) * 2 ^ (1075 - 8 * Format.signed16.bytes) := by decide +kernel

theorem test_meets_FormatTagsAndSampleSizes :
    (0 : Word).toNat = 0 ∧ 6 ≤ (6 : Word).toNat ∧ 6 ≤ (0x100000005 : Word).toNat := by decide

end Sys2Proof.Tests
end

section
/-! PROOFS. The statements of 00_scope: every instruction completes, a step runs the host's next transaction, the
state the model starts in, and the named properties of every `TRANSC`. -/

namespace Sys2Proof.Machine

/-! ## Steps and instructions -/

theorem step_of_transaction {s : State} {t : Transaction} {rest : List HostAction}
    (h : s.script = .transaction t :: rest) : step s = exec (decode t) (s.setScript rest) := by
  simp [step, h]

/-- Each of the ways an instruction can end is a next state. -/
theorem exec_safe (i : Instr) (s : State) : Safe (exec i s) := by
  obtain h | ⟨_, _, _, _, h⟩ | ⟨_, h⟩ | ⟨_, _, h⟩ | ⟨_, _, _, _, h⟩ := exec_cases i s <;> exact ⟨_, h⟩

/-! ## The state after reset -/

/-- A run inside one of the regions is inside their union. -/
theorem withinRegions_of_mem {regions : List Region} {r : Region} (hr : r ∈ regions) {lo hi : Nat}
    (hlo : r.base ≤ lo) (hhi : hi ≤ r.base + r.size) : WithinRegions regions lo hi :=
  fun _ hl hh => ⟨r, hr, Nat.le_trans hlo hl, Nat.lt_of_lt_of_le hh hhi⟩

/-- The one region of the default parameters holds every address of 32 bits. -/
theorem withinRegions_default {a : Nat} (ha : a < 2 ^ 32) : WithinRegions [⟨0, 4294967296⟩] a (a + 1) :=
  withinRegions_of_mem (List.mem_singleton_self _) (Nat.zero_le a) (by simp only; omega)

/-! ## Magnitudes of at most infinity, and of at most 1 -/

theorem isNaN_eq_false_of_le_infBits {v : F64} (h : absBits v ≤ infBits) : isNaN v = false :=
  decide_eq_false (Nat.not_lt.2 h)

theorem isNaN_eq_false_of_le_one {v : F64} (h : absBits v ≤ oneF.toNat) : isNaN v = false :=
  isNaN_eq_false_of_le_infBits (Nat.le_trans h (by decide))

theorem orderKey_bounds (v : F64) : -(absBits v : Int) ≤ orderKey v ∧ orderKey v ≤ (absBits v : Int) := by
  unfold orderKey
  split <;> omega

/-- T-RANGE: a magnitude of at most 1 is between -1 and 1, whatever its sign. -/
theorem between_minus_one_and_one {v : F64} (h : absBits v ≤ oneF.toNat) :
    fle 0xBFF0000000000000 v = true ∧ fle v oneF = true := by
  have hv := isNaN_eq_false_of_le_one h
  have hminus : orderKey 0xBFF0000000000000 = -(oneF.toNat : Int) := by decide
  have hone : orderKey oneF = (oneF.toNat : Int) := by decide
  have hminusNaN : isNaN 0xBFF0000000000000 = false := by decide
  have honeNaN : isNaN oneF = false := by decide
  obtain ⟨hlo, hhi⟩ := orderKey_bounds v
  rw [fle, fle, hv, hminus, hone, hminusNaN, honeNaN]
  exact ⟨decide_eq_true (by omega), decide_eq_true (by omega)⟩

/-- The form in which the values of sine and cosine are known to be at most 1. -/
theorem absBits_le_one_of_pack {v : F64} (h : ∃ (b : Bool) (p : Nat), p ≤ oneF.toNat ∧ v = pack b p) :
    absBits v ≤ oneF.toNat := by
  obtain ⟨b, p, hp, rfl⟩ := h
  rwa [absBits_pack b (Nat.lt_of_le_of_lt hp (by decide))]

/-- The form in which the powers of ten are known to be at most infinity. -/
theorem signOf_absBits_of_pack {v : F64} (h : ∃ p : Nat, p ≤ infBits ∧ v = pack false p) :
    signOf v = false ∧ absBits v ≤ infBits := by
  obtain ⟨p, hp, rfl⟩ := h
  have hlt : p < 2 ^ 63 := Nat.lt_of_le_of_lt hp (by decide)
  exact ⟨signOf_pack false hlt, by rwa [absBits_pack false hlt]⟩

/-! ## How the classes of patterns lie to each other -/

theorem isFinite_of_isNaN {x : F64} (h : isNaN x = true) : isFinite x = false := by
  rw [isNaN_iff] at h
  exact decide_eq_false (Nat.not_lt.2 (Nat.le_of_lt h))

theorem isFinite_of_isInf {x : F64} (h : isInf x = true) : isFinite x = false := by
  rw [isInf_iff] at h
  exact decide_eq_false (Nat.not_lt.2 (Nat.le_of_eq h.symm))

theorem isNaN_of_isInf {x : F64} (h : isInf x = true) : isNaN x = false := by
  rw [isInf_iff] at h
  exact decide_eq_false (Nat.not_lt.2 (Nat.le_of_eq h))

theorem isFinite_of_isZero {x : F64} (h : isZero x = true) : isFinite x = true := by
  rw [isFinite_iff, (isZero_iff x).1 h]
  decide

theorem quanta_of_isZero {x : F64} (h : isZero x = true) : quanta x = 0 := by
  rw [quanta, (isZero_iff x).1 h, quantaOfBits_zero_exp (by decide)]

/-! ## Sine and cosine of every `TRANSC` -/

theorem sin64_not_finite (tr : Transc) {x : F64} (hx : isFinite x = false) : sin64 tr x = nan64 := by
  cases tr <;> simp [sin64, sinRounded, sinOther, hx]

theorem cos64_not_finite (tr : Transc) {x : F64} (hx : isFinite x = false) : cos64 tr x = nan64 := by
  cases tr <;> simp [cos64, cosRounded, cosOther, hx]

/-- What all allowed values and the value that stands in for none satisfy, the chosen one satisfies. -/
theorem choose_induction (P : F64 → Prop) {choice : Nat} {values : List F64} {last : F64}
    (hvalues : ∀ v ∈ values, P v) (hlast : P last) : P (choose choice values last) := by
  rcases choose_cases choice values last with h | ⟨-, h⟩
  · exact hvalues _ h
  · rwa [h]

theorem sinRounded_le_one {x : F64} (hx : isFinite x = true) : absBits (sinRounded x) ≤ oneF.toNat := by
  rcases sinRounded_cases hx with ⟨hz, hs⟩ | h
  · rw [hs, (isZero_iff x).1 hz]
    exact Nat.zero_le _
  · exact absBits_le_one_of_pack h

theorem sinAllowed_le_one {x v : F64} (h : v ∈ sinAllowed x) : absBits v ≤ oneF.toNat := by
  unfold sinAllowed at h
  split at h <;> exact absBits_le_one_of_pack (unitValues_cases h)

theorem cosAllowed_le_one {x v : F64} (h : v ∈ cosAllowed x) : absBits v ≤ oneF.toNat := by
  unfold cosAllowed at h
  split at h <;> exact absBits_le_one_of_pack (unitValues_cases h)

/-- The sine of a finite operand has a magnitude of at most 1. -/
theorem sin64_le_one (tr : Transc) {x : F64} (hx : isFinite x = true) : absBits (sin64 tr x) ≤ oneF.toNat := by
  have hrounded := sinRounded_le_one hx
  cases tr with
  | correctlyRounded => exact hrounded
  | other id =>
    have hother : sin64 (.other id) x = choose (Config.sinChoice id x) (sinAllowed x) (sinRounded x) := by
      simp [sin64, sinOther, hx]
    rw [hother]
    exact choose_induction (absBits · ≤ oneF.toNat) (fun _ => sinAllowed_le_one) hrounded

/-- The cosine of a finite operand has a magnitude of at most 1. -/
theorem cos64_le_one (tr : Transc) {x : F64} (hx : isFinite x = true) : absBits (cos64 tr x) ≤ oneF.toNat := by
  have hrounded := absBits_le_one_of_pack (cosRounded_cases hx)
  cases tr with
  | correctlyRounded => exact hrounded
  | other id =>
    have hother : cos64 (.other id) x = choose (Config.cosChoice id x) (cosAllowed x) (cosRounded x) := by
      simp [cos64, cosOther, hx]
    rw [hother]
    exact choose_induction (absBits · ≤ oneF.toNat) (fun _ => cosAllowed_le_one) hrounded

/-! ## The power of ten of every `TRANSC` -/

/-- T-NAN and T-ONE leave no choice at a NaN, an infinity or a zero. -/
theorem pow10_eq_pow10Rounded (tr : Transc) {x : F64} (hx : isFinite x = false ∨ isZero x = true) :
    pow10 tr x = pow10Rounded x := by
  cases tr with
  | correctlyRounded => rfl
  | other id => rcases hx with hx | hx <;> simp [pow10, pow10Other, hx]

theorem pow10_of_isNaN (tr : Transc) {x : F64} (hx : isNaN x = true) : pow10 tr x = nan64 := by
  rw [pow10_eq_pow10Rounded tr (.inl (isFinite_of_isNaN hx))]
  simp [pow10Rounded, hx]

theorem pow10_of_isInf (tr : Transc) {x : F64} (hx : isInf x = true) :
    pow10 tr x = if signOf x then zeroOf false else infOf false := by
  rw [pow10_eq_pow10Rounded tr (.inl (isFinite_of_isInf hx))]
  simp [pow10Rounded, isNaN_of_isInf hx, hx]

/-- `10^0` and `10^-0` are exactly 1. -/
theorem pow10Whole_zero (neg : Bool) : pow10Whole neg 0 = oneF := by
  have hone : round64 oneQuanta 1 = absBits oneF := by
    have hquanta : quanta oneF = oneQuanta := by decide +kernel
    rw [← hquanta, ← Nat.mul_one (quanta oneF)]
    exact round64_quanta (by decide) Nat.one_pos
  have hpack : pack false (absBits oneF) = oneF := by decide
  cases neg <;> simp [pow10Whole, hone, hpack]

theorem oneQuanta_pos : 0 < oneQuanta := by
  unfold oneQuanta
  positivity

/-- T-ONE. -/
theorem pow10_of_isZero (tr : Transc) {x : F64} (hx : isZero x = true) : pow10 tr x = oneF := by
  have hfin := isFinite_of_isZero hx
  have hsmall : ¬400 * oneQuanta ≤ 0 := Nat.not_le.2 (Nat.mul_pos (by decide) oneQuanta_pos)
  rw [pow10_eq_pow10Rounded tr (.inr hx), pow10Rounded, isNaN_of_isFinite hfin, isInf_of_isFinite hfin,
    quanta_of_isZero hx, decide_eq_false hsmall, Nat.zero_mod, Nat.zero_div, pow10Whole_zero]
  rfl

/-- T-RANGE: the power of ten of an operand that is no NaN has a clear sign, and a magnitude of at most infinity. -/
theorem pow10_signOf_absBits (tr : Transc) {x : F64} (hx : isNaN x = false) :
    signOf (pow10 tr x) = false ∧ absBits (pow10 tr x) ≤ infBits := by
  have hrounded := signOf_absBits_of_pack (pow10Rounded_cases hx)
  cases tr with
  | correctlyRounded => exact hrounded
  | other id =>
    simp only [pow10, pow10Other]
    split
    · exact hrounded
    · refine choose_induction (fun v => signOf v = false ∧ absBits v ≤ infBits) (fun v hv => ?_) hrounded
      obtain ⟨p, hp, rfl⟩ := List.mem_map.1 hv
      exact signOf_absBits_of_pack ⟨p, le_infBits_of_mem_pow10Allowed hp, rfl⟩

theorem pow10_not_nan (tr : Transc) {x : F64} (hx : isNaN x = false) : isNaN (pow10 tr x) = false :=
  isNaN_eq_false_of_le_infBits (pow10_signOf_absBits tr hx).2

/-! ## NaN results (40_numerics R67) -/

theorem sin64_eq_nan64 (tr : Transc) {x : F64} (h : isNaN (sin64 tr x) = true) : sin64 tr x = nan64 := by
  cases hx : isFinite x with
  | false => exact sin64_not_finite tr hx
  | true => exact absurd h (Bool.eq_false_iff.1 (isNaN_eq_false_of_le_one (sin64_le_one tr hx)))

theorem cos64_eq_nan64 (tr : Transc) {x : F64} (h : isNaN (cos64 tr x) = true) : cos64 tr x = nan64 := by
  cases hx : isFinite x with
  | false => exact cos64_not_finite tr hx
  | true => exact absurd h (Bool.eq_false_iff.1 (isNaN_eq_false_of_le_one (cos64_le_one tr hx)))

theorem pow10_eq_nan64 (tr : Transc) {x : F64} (h : isNaN (pow10 tr x) = true) : pow10 tr x = nan64 := by
  cases hx : isNaN x with
  | true => exact pow10_of_isNaN tr hx
  | false => exact absurd h (Bool.eq_false_iff.1 (pow10_not_nan tr hx))

/-! ## The obligations -/

/-- Settles O4: `step` on a script that begins with a transaction. -/
theorem stepRunsTheNextTransaction : Obligations.StepRunsTheNextTransaction := by
  unfold Obligations.StepRunsTheNextTransaction
  exact fun _ _ _ h => step_of_transaction h

/-- Settles O8: the reset state is evaluated, and its one region holds every address. -/
theorem resetStateHasTheDefaultParameters : Obligations.ResetStateHasTheDefaultParameters := by
  unfold Obligations.ResetStateHasTheDefaultParameters
  refine ⟨rfl, by decide, rfl, rfl, rfl, fun a ha => ?_⟩
  exact ⟨withinRegions_default ha, withinRegions_default ha⟩

/-- Settles O11, from the inversion lemma of `exec`. -/
theorem everyInstructionCompletes : Obligations.EveryInstructionCompletes := by
  unfold Obligations.EveryInstructionCompletes
  exact exec_safe

/-- Settles O33: outside the special operands every value is a pattern of bounded magnitude, at them each function is
evaluated. -/
theorem everyTranscHasItsNamedProperties : Obligations.EveryTranscHasItsNamedProperties := by
  unfold Obligations.EveryTranscHasItsNamedProperties
  intro tr
  refine ⟨fun x hx => ?nan, fun x hx => ?inf, ?pow10PosInf, ?pow10NegInf, fun x hx => ?range,
    fun x hx => ⟨pow10_not_nan tr hx, (pow10_signOf_absBits tr hx).1⟩,
    pow10_of_isZero tr (by decide), pow10_of_isZero tr (by decide),
    fun x => ⟨sin64_eq_nan64 tr, cos64_eq_nan64 tr, pow10_eq_nan64 tr⟩⟩
  case nan =>
    have hfin := isFinite_of_isNaN hx
    exact ⟨sin64_not_finite tr hfin, cos64_not_finite tr hfin, pow10_of_isNaN tr hx⟩
  case inf =>
    have hfin := isFinite_of_isInf hx
    exact ⟨sin64_not_finite tr hfin, cos64_not_finite tr hfin⟩
  case pow10PosInf =>
    rw [pow10_of_isInf tr (by decide)]
    decide
  case pow10NegInf =>
    rw [pow10_of_isInf tr (by decide)]
    decide
  case range =>
    obtain ⟨hsinLo, hsinHi⟩ := between_minus_one_and_one (sin64_le_one tr hx)
    obtain ⟨hcosLo, hcosHi⟩ := between_minus_one_and_one (cos64_le_one tr hx)
    exact ⟨hsinLo, hsinHi, hcosLo, hcosHi⟩

end Sys2Proof.Machine
end

section
/-! PROOFS. The register map (10_state R14, R23, R24): which numbers are named, which are history, and what RD and WR
do at each. -/

namespace Sys2Proof.Machine

/-! ## The numbers of the map -/

/-- The mapped numbers below the history file (10_state R23). -/
def namedNumbers : List Nat :=
  [0x000, 0x001, 0x002, 0x003, 0x004, 0x005, 0x008, 0x009, 0x00A, 0x00B, 0x00C, 0x00D, 0x00E,
    0x010, 0x011, 0x012, 0x013, 0x014, 0x015, 0x016, 0x017, 0x020, 0x021,
    0x028, 0x029, 0x02A, 0x02B, 0x02C, 0x030, 0x031, 0x032, 0x033, 0x034]

theorem namedNumbers_lt {n : Nat} (h : n ∈ namedNumbers) : n < 0x100 := by
  have hall : ∀ k ∈ namedNumbers, k < 0x100 := by decide
  exact hall n h

/-- A number that has no name of its own is looked up in the history file. -/
theorem regOfNumber_of_not_named {n : Nat} (m : Nat) (h : n ∉ namedNumbers) : regOfNumber m n = histReg m n := by
  unfold regOfNumber
  split
  case h_34 => rfl
  all_goals exact absurd (by decide) h

theorem histReg_slot {m c k : Nat} (hc : c < m) (hk : k < 4) :
    histReg m (0x100 + 4 * c + k) = some (.hist c (slotField k)) := by
  have hdiv : (0x100 + 4 * c + k - 0x100) / 4 = c := by omega
  have hmod : (0x100 + 4 * c + k - 0x100) % 4 = k := by omega
  rw [histReg, hdiv, hmod, if_pos ⟨by omega, hc⟩]

/-- A number that has no name of its own and lies outside the history file is unmapped. -/
theorem regOfNumber_eq_none {m n : Nat} (hn : n ∉ namedNumbers) (h : n < 0x100 ∨ 0x100 + 4 * m ≤ n) :
    regOfNumber m n = none := by
  rw [regOfNumber_of_not_named m hn, histReg, if_neg (by omega)]

theorem histReg_ne_cmd (m n : Nat) : histReg m n ≠ some .cmd := by
  unfold histReg
  split <;> simp

/-- `CMD` has one number. -/
theorem eq_cmdNumber_of_regOfNumber {m : Nat} {reg : RegNum} (h : regOfNumber m reg.toNat = some .cmd) :
    reg = cmdNumber := by
  apply BitVec.eq_of_toNat_eq
  unfold regOfNumber at h
  split at h
  case h_7 hnum => exact hnum
  case h_34 => exact absurd h (histReg_ne_cmd m _)
  all_goals cases h

/-! ## Reading and writing at a number -/

theorem readNumber_of_some {s : State} {n : RegNum} {r : Reg} (h : regOfNumber s.maxChannels n.toNat = some r) :
    s.readNumber n = s.reg r := by
  simp [State.readNumber, h]

theorem readNumber_of_none {s : State} {n : RegNum} (h : regOfNumber s.maxChannels n.toNat = none) :
    s.readNumber n = 0 := by
  simp [State.readNumber, h]

theorem execWr_of_none {s : State} {n : RegNum} (v : Word) (h : regOfNumber s.maxChannels n.toNat = none) :
    execWr n v s = .next s := by
  simp [execWr, h]

theorem execWr_of_readOnly {s : State} {n : RegNum} {r : Reg} (v : Word)
    (h : regOfNumber s.maxChannels n.toNat = some r) (hr : r.hostWritable = false) : execWr n v s = .next s := by
  simp [execWr, h, hr]

@[simp] theorem execWr_cmd (w : Word) (s : State) : execWr cmdNumber w s = .next (s.execute w) := rfl

/-- A WR to a number other than that of `CMD` changes nothing, or stores one register. -/
theorem execWr_cases_of_ne {n : RegNum} (v : Word) (s : State) (hn : n ≠ cmdNumber) :
    execWr n v s = .next s ∨
    ∃ r, r ≠ .cmd ∧ r.hostWritable = true ∧ execWr n v s = .next (s.writeReg r v) := by
  cases h : regOfNumber s.maxChannels n.toNat with
  | none => exact .inl (execWr_of_none v h)
  | some r =>
    have hcmd : r ≠ .cmd := fun e => hn (eq_cmdNumber_of_regOfNumber (e ▸ h))
    cases hw : r.hostWritable with
    | false => exact .inl (execWr_of_readOnly v h hw)
    | true => exact .inr ⟨r, hcmd, hw, by simp [execWr, h, hw, hcmd]⟩

/-- The history file begins at `0x100`, and its numbers are below `2^12` for at most 960 slots. -/
theorem regOfNumber_histNumber {m c k : Nat} (hm : m ≤ 960) (hc : c < m) (hk : k < 4) :
    regOfNumber m (BitVec.ofNat 12 (0x100 + 4 * c + k)).toNat = some (.hist c (slotField k)) := by
  have htoNat : (BitVec.ofNat 12 (0x100 + 4 * c + k)).toNat = 0x100 + 4 * c + k := by
    rw [BitVec.toNat_ofNat]
    exact Nat.mod_eq_of_lt (by omega)
  have hnamed : 0x100 + 4 * c + k ∉ namedNumbers := fun h => by
    have := namedNumbers_lt h
    omega
  rw [htoNat, regOfNumber_of_not_named m hnamed, histReg_slot hc hk]

end Sys2Proof.Machine
end

section
/-! PROOFS. What a transaction leaves as it was: the state the host cannot write changes by a command that succeeds, and
by what that command writes, only. -/

namespace Sys2Proof.Machine

/-! ## The command a word names -/

/-- A command word is one of the seven (30_encoding R48). -/
theorem encodeCommand_of_decodeCommand {w : Word} {c : Command} (h : decodeCommand w = .ok c) :
    w = encodeCommand c := by
  apply BitVec.eq_of_toNat_eq
  unfold decodeCommand at h
  split at h
  · cases h
  · split at h <;> cases h <;> assumption

/-! ## What a successful command writes -/

/-- The states a successful command can leave `s` in, `RESULT` aside: what it writes, everything else as in `s`. -/
inductive CommandWrites (s : State) : Command → State → Prop where
  | new (k : Coefs) (h : List Slot) : CommandWrites s .new
      ((((s.setCoef k).setShape s.cfg.format s.cfg.channels).setHist h).setStatus (statusReady s.status))
  | reinit (k : Coefs) (h : List Slot) : CommandWrites s .reinit
      (((s.setCoef k).setShape s.cfg.format s.cfg.channels).setHist h)
  | process (h : List Slot) (m : List Host.Cell) : CommandWrites s .process ((s.setHist h).setMem m)
  | psample (h : List Slot) (y : F64) : CommandWrites s .psample ((s.setHist h).setPsY y)
  | clear (h : List Slot) : CommandWrites s .clear (s.setHist h)
  | latency : CommandWrites s .latency (s.setRetval 1)
  | design (k : Coefs) : CommandWrites s .design (s.setDsn k)

theorem commandBody_writes {c : Command} {s u : State} (h : commandBody c s = .ok u) : CommandWrites s c u := by
  cases c with
  | new =>
    obtain ⟨k, -, rfl⟩ := newCommand_ok h
    exact .new k _
  | reinit =>
    obtain ⟨-, k, -, rfl⟩ := reinitCommand_ok h
    exact .reinit k _
  | process =>
    obtain ⟨fmt, -, rfl⟩ := processCommand_ok h
    obtain ⟨⟨hist, mem, heq⟩, -⟩ := processLoop_frame fmt s
    rw [heq]
    exact .process hist mem
  | psample =>
    obtain ⟨-, -, rfl⟩ := psampleCommand_ok h
    exact .psample _ _
  | clear =>
    obtain ⟨-, rfl⟩ := clearCommand_ok h
    exact .clear _
  | latency =>
    obtain rfl := latencyCommand_ok h
    exact .latency
  | design =>
    obtain ⟨k, -, rfl⟩ := designCommand_ok h
    exact .design k

/-! ## The state that the host cannot write -/

/-- Everything that neither the host nor a failing command writes, `RESULT` aside, is as before. -/
structure ReadOnlyKept (s t : State) : Prop where
  status : t.status = s.status
  retval : t.retval = s.retval
  psY : t.psY = s.psY
  actFormat : t.actFormat = s.actFormat
  actChannels : t.actChannels = s.actChannels
  coef : t.coef = s.coef
  dsn : t.dsn = s.dsn
  hist : t.hist = s.hist
  mem : t.mem = s.mem

theorem ReadOnlyKept.refl (s : State) : ReadOnlyKept s s :=
  ⟨rfl, rfl, rfl, rfl, rfl, rfl, rfl, rfl, rfl⟩

theorem ReadOnlyKept.writeReg (s : State) (r : Reg) (v : Word) : ReadOnlyKept s (s.writeReg r v) := by
  cases r <;> exact { ReadOnlyKept.refl s with }

theorem ReadOnlyKept.giveHost (s : State) (v : Word) : ReadOnlyKept s (s.giveHost v) :=
  { ReadOnlyKept.refl s with }

theorem ReadOnlyKept.fail (s : State) (w : Word) (c : Cause) : ReadOnlyKept s ((s.setCmd w).fail c) :=
  { ReadOnlyKept.refl s with }

/-- A command either fails, or succeeds with what it writes. -/
theorem issue_keeps_or_writes (c : Command) (s : State) (w : Word) :
    ReadOnlyKept s (s.issue w (commandBody c)) ∨
    ∃ u, CommandWrites (s.setCmd w) c u ∧ s.issue w (commandBody c) = u.succeed := by
  rcases State.issue_cases s w (commandBody c) with ⟨k, -, h⟩ | ⟨u, hu, h⟩
  · exact .inl (h ▸ .fail s w k)
  · exact .inr ⟨u, commandBody_writes hu, h⟩

/-- A WR keeps what the host cannot write, unless it runs a command that succeeds. -/
theorem execWr_keeps_or_writes (n : RegNum) (v : Word) (s : State) :
    ∃ t, execWr n v s = .next t ∧ (ReadOnlyKept s t ∨
      ∃ c u, n = cmdNumber ∧ v = encodeCommand c ∧ CommandWrites (s.setCmd v) c u ∧ t = u.succeed) := by
  by_cases hn : n = cmdNumber
  · subst hn
    refine ⟨_, execWr_cmd v s, ?_⟩
    rcases State.execute_cases s v with ⟨e, -, h⟩ | ⟨c, hc, h⟩
    · exact .inl (h ▸ .fail s v _)
    · rw [h]
      exact (issue_keeps_or_writes c s v).imp id fun ⟨u, hu, ht⟩ =>
        ⟨c, u, rfl, encodeCommand_of_decodeCommand hc, hu, ht⟩
  · rcases execWr_cases_of_ne v s hn with h | ⟨r, -, -, h⟩
    · exact ⟨s, h, .inl (.refl s)⟩
    · exact ⟨_, h, .inl (.writeReg s r v)⟩

/-- An instruction keeps what the host cannot write, unless it runs a command that succeeds. -/
theorem exec_keeps_or_writes {i : Instr} {s t : State} (h : exec i s = .next t) :
    ReadOnlyKept s t ∨
    ∃ c u, isRunBy c i ∧ CommandWrites (s.setCmd (encodeCommand c)) c u ∧ t = u.succeed := by
  have command (c : Command) (hc : exec c.toInstr s = .next t) : ReadOnlyKept s t ∨
      ∃ d u, isRunBy d c.toInstr ∧ CommandWrites (s.setCmd (encodeCommand d)) d u ∧ t = u.succeed := by
    rw [exec_command] at hc
    obtain rfl := Host.Outcome.next.inj hc
    exact (issue_keeps_or_writes c s _).imp id fun ⟨u, hu, ht⟩ => ⟨c, u, .inl rfl, hu, ht⟩
  cases i with
  | wr n v =>
    obtain ⟨t', ht', hcases⟩ := execWr_keeps_or_writes n v s
    obtain rfl : t' = t := Host.Outcome.next.inj (ht'.symm.trans h)
    refine hcases.imp id ?_
    rintro ⟨c, u, rfl, rfl, hu, ht⟩
    exact ⟨c, u, .inr rfl, hu, ht⟩
  | rd n =>
    obtain rfl := Host.Outcome.next.inj h
    exact .inl (.giveHost s _)
  | new => exact command .new h
  | reinit => exact command .reinit h
  | process => exact command .process h
  | psample => exact command .psample h
  | clear => exact command .clear h
  | latency => exact command .latency h
  | design => exact command .design h

/-! ## `READY` and the reserved bits of `STATUS` (10_state R19) -/

theorem statusReady_ready (w : Word) : (statusReady w).getLsbD 0 = true := by
  simp [statusReady]

theorem statusReady_of_ready {w : Word} (h : w.getLsbD 0 = true) : statusReady w = w := by
  apply BitVec.eq_of_getLsbD_eq
  intro i hi
  rw [statusReady, BitVec.getLsbD_or]
  by_cases h0 : i = 0
  · simp [h0, h]
  · simp [BitVec.getLsbD_one, h0]

theorem statusReady_reserved {w : Word} (h : w.toNat / 2 = 0) : (statusReady w).toNat / 2 = 0 := by
  have hw : w.toNat = 0 ∨ w.toNat = 1 := by omega
  rcases hw with hw | hw <;> simp [statusReady, hw]

/-- What `RESULT` holds after a failure: codes 1 and 2 with their causes (60 R131). -/
theorem failureResult_cases (c : Cause) :
    (∃ n, 1 ≤ n ∧ n ≤ 14 ∧ failureResult c = BitVec.ofNat 64 (n * 256 + 1)) ∨
    (∃ n, 15 ≤ n ∧ n ≤ 16 ∧ failureResult c = BitVec.ofNat 64 (n * 256 + 2)) := by
  cases c
  case reservedBits => exact .inr ⟨15, by decide, by decide, rfl⟩
  case unknownOpcode => exact .inr ⟨16, by decide, by decide, rfl⟩
  all_goals exact .inl ⟨_, by decide, by decide, rfl⟩

theorem failureResult_ne_zero (c : Cause) : failureResult c ≠ 0 := by
  cases c <;> decide

/-- A command's instruction fails with a cause, or succeeds with the state its body gives. -/
theorem exec_command_cases {c : Command} {s t : State} (h : exec c.toInstr s = .next t) :
    (∃ k, t = (s.setCmd (encodeCommand c)).fail k) ∨
    ∃ u, commandBody c (s.setCmd (encodeCommand c)) = .ok u ∧ t = u.succeed := by
  rw [exec_command] at h
  obtain rfl := Host.Outcome.next.inj h
  exact (State.issue_cases s (encodeCommand c) (commandBody c)).imp (fun ⟨k, _, hk⟩ => ⟨k, hk⟩) id

/-- A command that fails changes `CMD` and `RESULT` only (60 R134). -/
theorem exec_of_error {c : Command} {s : State} {k : Cause}
    (h : commandBody c (s.setCmd (encodeCommand c)) = .error k) :
    exec c.toInstr s = .next { s with cmd := encodeCommand c, result := failureResult k } := by
  rw [exec_command, State.issue_error h]
  rfl

/-! ## Right after reset (10_state R29) -/

theorem State.afterReset_slot (m : Nat) (mem : List Host.Cell) (p : Params) (script : List HostAction)
    (out : List Word) (c : Nat) : (State.afterReset m mem p script out).slot c = Slot.zero := by
  rw [State.slot, State.afterReset, List.getD_eq_getElem?_getD, List.getElem?_replicate]
  split <;> rfl

/-- Every register is zero, mapped or not. -/
theorem State.afterReset_readNumber (m : Nat) (mem : List Host.Cell) (p : Params) (script : List HostAction)
    (out : List Word) (n : RegNum) : (State.afterReset m mem p script out).readNumber n = 0 := by
  cases h : regOfNumber (State.afterReset m mem p script out).maxChannels n.toNat with
  | none => exact readNumber_of_none h
  | some r =>
    rw [readNumber_of_some h]
    cases r with
    | hist c f =>
      rw [State.reg, State.afterReset_slot]
      cases f <;> rfl
    | _ => rfl

/-! ## Commands that do not see the staging registers, or the last `RESULT` -/

theorem psampleCommand_notReady {s : State} (hr : s.ready = false) : psampleCommand s = .error .notReady :=
  if_pos hr

theorem psampleCommand_badChannelIndex {s : State} (hr : s.ready = true)
    (hc : ¬s.psChannel.toNat < s.actChannels.toNat) : psampleCommand s = .error .badChannelIndex := by
  rw [psampleCommand, if_neg (by simp [hr]), if_pos hc]

theorem psampleCommand_ready {s : State} (hr : s.ready = true) (hc : s.psChannel.toNat < s.actChannels.toNat) :
    psampleCommand s = .ok ((s.setSlot s.psChannel.toNat
        (biquadStep s.coef (s.slot s.psChannel.toNat) (valueOf s.psX)).2).setPsY
      (biquadStep s.coef (s.slot s.psChannel.toNat) (valueOf s.psX)).1) := by
  rw [psampleCommand, if_neg (by simp [hr]), if_neg (not_not.2 hc)]

theorem processCommand_notReady {s : State} (hr : s.ready = false) : processCommand s = .error .notReady := by
  simp [processCommand, processChecks, hr]

/-- What every pass commutes with, the loop commutes with. -/
theorem loopFrom_comm {body : Nat → State → State} (g : State → State) (hbody : ∀ i s, body i (g s) = g (body i s))
    (n first : Nat) (s : State) : loopFrom body n first (g s) = g (loopFrom body n first s) := by
  induction n generalizing first s with
  | zero => rfl
  | succ n ih => rw [loopFrom, loopFrom, hbody, ih]

theorem processLoop_setResult (fmt : Format) (s : State) (r : Word) :
    processLoop fmt (s.setResult r) = (processLoop fmt s).setResult r :=
  loopFrom_comm (body := processFrame fmt) (·.setResult r)
    (fun f t => loopFrom_comm (body := processSample fmt f) (·.setResult r) (fun _ _ => rfl) t.actChannels.toNat 0 t)
    s.input.frames.toNat 0 s

/-- A command's body neither reads `RESULT` nor writes it. -/
theorem commandBody_setResult (c : Command) (s : State) (r : Word) :
    commandBody c (s.setResult r) = (commandBody c s).map (·.setResult r) := by
  cases c with
  | new =>
    have hchecked : (s.setResult r).configChecked = s.configChecked := rfl
    simp only [commandBody, newCommand, hchecked]
    cases s.configChecked <;> rfl
  | reinit =>
    have hready : (s.setResult r).ready = s.ready := rfl
    have hchecked : (s.setResult r).configChecked = s.configChecked := rfl
    simp only [commandBody, reinitCommand, hready, hchecked]
    cases s.ready <;> cases s.configChecked <;> rfl
  | process =>
    have hchecks : processChecks (s.setResult r) = processChecks s := rfl
    simp only [commandBody, processCommand, hchecks, processLoop_setResult]
    cases processChecks s <;> rfl
  | psample =>
    simp only [commandBody]
    cases hr : s.ready
    · rw [psampleCommand_notReady hr, psampleCommand_notReady (s := s.setResult r) hr]
      rfl
    · by_cases hc : s.psChannel.toNat < s.actChannels.toNat
      · rw [psampleCommand_ready hr hc, psampleCommand_ready (s := s.setResult r) hr hc]
        rfl
      · rw [psampleCommand_badChannelIndex hr hc, psampleCommand_badChannelIndex (s := s.setResult r) hr hc]
        rfl
  | clear =>
    have hready : (s.setResult r).ready = s.ready := rfl
    simp only [commandBody, clearCommand, hready]
    split <;> rfl
  | latency => rfl
  | design =>
    have hstaged : (s.setResult r).designStaged = s.designStaged := rfl
    simp only [commandBody, designCommand, hstaged]
    cases s.designStaged <;> rfl

/-- A command's end replaces `RESULT`, so that nothing is left of what it held. -/
theorem State.issue_setResult (s : State) (w r : Word) (c : Command) :
    (s.setResult r).issue w (commandBody c) = s.issue w (commandBody c) := by
  have hbody : commandBody c ((s.setResult r).setCmd w) = (commandBody c (s.setCmd w)).map (·.setResult r) :=
    commandBody_setResult c (s.setCmd w) r
  rw [State.issue, State.issue, hbody]
  cases commandBody c (s.setCmd w) <;> rfl

theorem State.execute_setResult (s : State) (w r : Word) : (s.setResult r).execute w = s.execute w := by
  unfold State.execute
  split
  · rfl
  · exact State.issue_setResult s w r _

/-- PSAMPLE, CLEAR and LATENCY neither read the staging registers nor write them. -/
theorem commandBody_setCfg {c : Command} (hc : c = .psample ∨ c = .clear ∨ c = .latency) (s : State)
    (k : Configuration) : commandBody c (s.setCfg k) = (commandBody c s).map (·.setCfg k) := by
  have hready : (s.setCfg k).ready = s.ready := rfl
  rcases hc with rfl | rfl | rfl
  · simp only [commandBody]
    cases hr : s.ready
    · rw [psampleCommand_notReady hr, psampleCommand_notReady (s := s.setCfg k) hr]
      rfl
    · by_cases hc : s.psChannel.toNat < s.actChannels.toNat
      · rw [psampleCommand_ready hr hc, psampleCommand_ready (s := s.setCfg k) hr hc]
        rfl
      · rw [psampleCommand_badChannelIndex hr hc, psampleCommand_badChannelIndex (s := s.setCfg k) hr hc]
        rfl
  · simp only [commandBody, clearCommand, hready]
    split <;> rfl
  · rfl

theorem exec_setCfg {c : Command} (hc : c = .psample ∨ c = .clear ∨ c = .latency) {s t : State} (k : Configuration)
    (h : exec c.toInstr s = .next t) : exec c.toInstr (s.setCfg k) = .next (t.setCfg k) := by
  have hbody : commandBody c ((s.setCfg k).setCmd (encodeCommand c)) =
      (commandBody c (s.setCmd (encodeCommand c))).map (·.setCfg k) := commandBody_setCfg hc (s.setCmd _) k
  rw [exec_command] at h ⊢
  obtain rfl := Host.Outcome.next.inj h
  rw [State.issue, State.issue, hbody]
  cases commandBody c (s.setCmd (encodeCommand c)) <;> rfl

end Sys2Proof.Machine
end

section
/-! PROOFS. The six register invariants of 10_state R28 hold after reset, and every step keeps them. -/

namespace Sys2Proof.Machine

/-! ## The invariants as rules -/

/-- 10_state R28 item 1, the part on `RESULT`: its upper bits are 0, the code is legal, and there is a cause exactly when
there is a failure. -/
def resultLegal (w : Word) : Bool :=
  decide (w.toNat / 65536 = 0) && decide (resultCode w ≤ 2) &&
    (decide (resultCause w = 0) == decide (resultCode w = 0))

/-- The six invariants of 10_state R28 as propositions, the history slot by slot. -/
structure RegisterRules (s : State) : Prop where
  status : s.status.toNat / 2 = 0
  result : resultLegal s.result = true
  empty : s.ready = false → s.actFormat = 0 ∧ s.actChannels = 0 ∧ s.coef = Coefs.zero ∧ ∀ c, s.slot c = Slot.zero
  filter : s.ready = true → (formatOfTag s.actFormat).isSome = true ∧ 1 ≤ s.actChannels.toNat ∧
    s.actChannels.toNat ≤ s.maxChannels ∧ s.coef.finite = true
  unused : ∀ c, s.actChannels.toNat ≤ c → s.slot c = Slot.zero
  retval : s.retval.toNat ≤ 1
  designer : s.dsn = Coefs.zero ∨ s.dsn.finite = true

theorem State.resultInv_iff (s : State) :
    s.resultInv = true ↔ s.status.toNat / 2 = 0 ∧ resultLegal s.result = true := by
  simp only [State.resultInv, resultLegal, Bool.and_eq_true, decide_eq_true_eq, and_assoc]

/-- All slots from number `n` up are zero. -/
theorem all_drop_zero_iff (n : Nat) (hist : List Slot) :
    (hist.drop n).all (fun h => decide (h = Slot.zero)) = true ↔ ∀ c, n ≤ c → hist.getD c Slot.zero = Slot.zero := by
  simp only [List.all_eq_true, decide_eq_true_eq, List.getD_eq_getElem?_getD]
  constructor
  · intro h c hc
    cases hget : hist[c]? with
    | none => rfl
    | some x =>
      refine h x (List.mem_iff_getElem?.2 ⟨c - n, ?_⟩)
      rw [List.getElem?_drop, Nat.add_sub_cancel' hc, hget]
  · intro h x hx
    obtain ⟨j, hj⟩ := List.mem_iff_getElem?.1 hx
    rw [List.getElem?_drop] at hj
    simpa [hj] using h (n + j) (Nat.le_add_right n j)

theorem State.unusedSlotsInv_iff (s : State) :
    s.unusedSlotsInv = true ↔ ∀ c, s.actChannels.toNat ≤ c → s.slot c = Slot.zero :=
  all_drop_zero_iff s.actChannels.toNat s.hist

theorem State.emptyInv_iff (s : State) :
    s.emptyInv = true ↔
      (s.ready = false → s.actFormat = 0 ∧ s.actChannels = 0 ∧ s.coef = Coefs.zero ∧ ∀ c, s.slot c = Slot.zero) := by
  have hslots : s.hist.all (fun h => decide (h = Slot.zero)) = true ↔ ∀ c, s.slot c = Slot.zero := by
    simpa [State.slot] using all_drop_zero_iff 0 s.hist
  cases hr : s.ready <;> simp [State.emptyInv, hr, hslots, and_assoc, -List.all_eq_true]

theorem State.filterInv_iff (s : State) :
    s.filterInv = true ↔
      (s.ready = true → (formatOfTag s.actFormat).isSome = true ∧ 1 ≤ s.actChannels.toNat ∧
        s.actChannels.toNat ≤ s.maxChannels ∧ s.coef.finite = true) := by
  cases hr : s.ready <;> simp [State.filterInv, hr, and_assoc]

theorem State.retvalInv_iff (s : State) : s.retvalInv = true ↔ s.retval.toNat ≤ 1 := by
  simp [State.retvalInv]

theorem State.designerInv_iff (s : State) :
    s.designerInv = true ↔ s.dsn = Coefs.zero ∨ s.dsn.finite = true := by
  simp [State.designerInv]

theorem State.registersInv_iff (s : State) : s.registersInv = true ↔ RegisterRules s := by
  simp only [State.registersInv, Bool.and_eq_true, State.resultInv_iff, State.emptyInv_iff, State.filterInv_iff,
    State.unusedSlotsInv_iff, State.retvalInv_iff, State.designerInv_iff]
  constructor
  · rintro ⟨⟨⟨⟨⟨⟨hstatus, hresult⟩, hempty⟩, hfilter⟩, hunused⟩, hretval⟩, hdesigner⟩
    exact ⟨hstatus, hresult, hempty, hfilter, hunused, hretval, hdesigner⟩
  · rintro ⟨hstatus, hresult, hempty, hfilter, hunused, hretval, hdesigner⟩
    exact ⟨⟨⟨⟨⟨⟨hstatus, hresult⟩, hempty⟩, hfilter⟩, hunused⟩, hretval⟩, hdesigner⟩

/-! ## Updates that are not seen by the rules -/

namespace RegisterRules

variable {s : State}

theorem setCmd (h : RegisterRules s) (w : Word) : RegisterRules (s.setCmd w) := { h with }

theorem setPsY (h : RegisterRules s) (v : F64) : RegisterRules (s.setPsY v) := { h with }

theorem setMem (h : RegisterRules s) (m : List Host.Cell) : RegisterRules (s.setMem m) := { h with }

theorem setScript (h : RegisterRules s) (l : List HostAction) : RegisterRules (s.setScript l) := { h with }

theorem giveHost (h : RegisterRules s) (v : Word) : RegisterRules (s.giveHost v) := { h with }

/-- The host writes no register of which a rule speaks. -/
theorem writeReg (h : RegisterRules s) (r : Reg) (v : Word) : RegisterRules (s.writeReg r v) := by
  cases r <;> exact { h with }

/-! ## The ends of a command -/

theorem setResult (h : RegisterRules s) {w : Word} (hw : resultLegal w = true) : RegisterRules (s.setResult w) :=
  { h with result := hw }

theorem fail (h : RegisterRules s) (c : Cause) : RegisterRules (s.fail c) :=
  h.setResult (by cases c <;> decide)

theorem succeed (h : RegisterRules s) : RegisterRules s.succeed :=
  h.setResult (by decide)

/-! ## What the commands write -/

theorem setRetval (h : RegisterRules s) {w : Word} (hw : w.toNat ≤ 1) : RegisterRules (s.setRetval w) :=
  { h with retval := hw }

theorem setDsn (h : RegisterRules s) {k : Coefs} (hk : k.finite = true) : RegisterRules (s.setDsn k) :=
  { h with designer := .inr hk }

/-- A channel of the filter gets a new history. -/
theorem setSlot (h : RegisterRules s) (hr : s.ready = true) {c : Nat} (hc : c < s.actChannels.toNat) (v : Slot) :
    RegisterRules (s.setSlot c v) where
  status := h.status
  result := h.result
  empty := fun hr' => Bool.noConfusion (hr.symm.trans hr')
  filter := fun _ => by simpa using h.filter hr
  unused := fun d hd => by
    have hd' : s.actChannels.toNat ≤ d := hd
    rw [State.setSlot_slot_other s c d v (by omega), h.unused d hd']
  retval := h.retval
  designer := h.designer

theorem clearHistory (h : RegisterRules s) : RegisterRules s.clearHistory where
  status := h.status
  result := h.result
  empty := fun hr => by
    obtain ⟨hformat, hchannels, hcoef, -⟩ := h.empty hr
    exact ⟨hformat, hchannels, hcoef, fun c => State.zeroSlots_slot s 0 c⟩
  filter := fun hr => by simpa [State.clearHistory, State.maxChannels] using h.filter hr
  unused := fun c _ => State.zeroSlots_slot s 0 c
  retval := h.retval
  designer := h.designer

/-- NEW and REINIT: a checked configuration becomes the filter, and no history is left in the slots above its
channels. -/
theorem configure (h : RegisterRules s) {k : Coefs} (hk : s.configChecked = .ok k) {n : Nat}
    (hn : n ≤ s.cfg.channels.toNat) {w : Word} (hready : w.getLsbD 0 = true) (hw : w.toNat / 2 = 0) :
    RegisterRules ((((s.setCoef k).setShape s.cfg.format s.cfg.channels).setHist (zeroSlotsFrom n s.hist)).setStatus w) where
  status := hw
  result := h.result
  empty := fun hr => Bool.noConfusion (hready.symm.trans hr)
  filter := fun _ => by
    obtain ⟨hformat, hlow, hhigh, hdesign⟩ := State.configChecked_ok hk
    refine ⟨hformat, hlow, ?_, State.designStaged_finite hdesign⟩
    simpa [State.maxChannels] using hhigh
  unused := fun c hc => by
    have hc' : s.cfg.channels.toNat ≤ c := hc
    exact (State.zeroSlots_slot s n c).trans (if_neg (by omega))
  retval := h.retval
  designer := h.designer

end RegisterRules

/-! ## PROCESS -/

/-- What every pass of PROCESS keeps: the rules hold, and there is a filter of these channels. -/
structure FilterRuns (channels : Word) (s : State) : Prop where
  rules : RegisterRules s
  ready : s.ready = true
  channels : s.actChannels = channels

namespace FilterRuns

variable {channels : Word} {s : State}

theorem processSample (h : FilterRuns channels s) (fmt : Format) (f : Nat) {c : Nat} (hc : c < channels.toNat) :
    FilterRuns channels (processSample fmt f c s) where
  rules := (h.rules.setSlot h.ready (h.channels ▸ hc) _).setMem _
  ready := h.ready
  channels := h.channels

theorem processFrame (h : FilterRuns channels s) (fmt : Format) (f : Nat) :
    FilterRuns channels (processFrame fmt f s) := by
  refine loopFrom_keeps (FilterRuns channels) _ 0 s (fun c u _ hc hu => hu.processSample fmt f ?_) h
  rwa [h.channels, Nat.zero_add] at hc

theorem processLoop (h : FilterRuns channels s) (fmt : Format) : FilterRuns channels (processLoop fmt s) :=
  loopFrom_keeps (FilterRuns channels) _ 0 s (fun f _ _ _ hu => hu.processFrame fmt f) h

end FilterRuns

/-! ## Commands, instructions and steps -/

namespace RegisterRules

variable {s : State}

theorem commandBody {c : Command} (h : RegisterRules s) {u : State} (hu : commandBody c s = .ok u) :
    RegisterRules u := by
  cases c with
  | new =>
    obtain ⟨k, hk, rfl⟩ := newCommand_ok hu
    exact h.configure hk (Nat.zero_le _) (statusReady_ready _) (statusReady_reserved h.status)
  | reinit =>
    obtain ⟨hr, k, hk, rfl⟩ := reinitCommand_ok hu
    exact h.configure hk (Nat.min_le_right _ _) hr h.status
  | process =>
    obtain ⟨fmt, hchecks, rfl⟩ := processCommand_ok hu
    obtain ⟨hr, -⟩ := processChecks_ok hchecks
    exact (FilterRuns.processLoop ⟨h, hr, rfl⟩ fmt).rules
  | psample =>
    obtain ⟨hr, hc, rfl⟩ := psampleCommand_ok hu
    exact (h.setSlot hr hc _).setPsY _
  | clear =>
    obtain ⟨-, rfl⟩ := clearCommand_ok hu
    exact h.clearHistory
  | latency =>
    obtain rfl := latencyCommand_ok hu
    exact h.setRetval (by decide)
  | design =>
    obtain ⟨k, hk, rfl⟩ := designCommand_ok hu
    exact h.setDsn (State.designStaged_finite hk)

theorem exec (h : RegisterRules s) {i : Instr} {t : State} (ht : exec i s = .next t) : RegisterRules t := by
  rcases exec_cases i s with hi | ⟨r, v, -, -, hi⟩ | ⟨v, hi⟩ | ⟨w, c, hi⟩ | ⟨w, c, u, hu, hi⟩ <;>
    obtain rfl := Host.Outcome.next.inj (hi.symm.trans ht)
  · exact h
  · exact h.writeReg r v
  · exact h.giveHost v
  · exact (h.setCmd w).fail c
  · exact ((h.setCmd w).commandBody hu).succeed

/-- Right after reset every register is zero, which every rule admits. -/
theorem afterReset (m : Nat) (mem : List Host.Cell) (p : Params) (script : List HostAction) (out : List Word) :
    RegisterRules (State.afterReset m mem p script out) where
  status := (by decide : (0 : Word).toNat / 2 = 0)
  result := (by decide : resultLegal 0 = true)
  empty := fun _ => ⟨rfl, rfl, rfl, State.afterReset_slot m mem p script out⟩
  filter := fun hr => absurd hr (by simp [State.ready, State.afterReset])
  unused := fun c _ => State.afterReset_slot m mem p script out c
  retval := Nat.zero_le _
  designer := .inl rfl

theorem hostStore (h : RegisterRules s) {a : Nat} {b : Byte} {t : State} (ht : hostStore a b s = .next t) :
    RegisterRules t := by
  unfold Machine.hostStore at ht
  split at ht
  · obtain rfl := Host.Outcome.next.inj ht
    exact h.setMem _
  · cases ht

theorem step (h : RegisterRules s) {t : State} (ht : step s = .next t) : RegisterRules t := by
  rcases step_cases s with ⟨-, hs⟩ | ⟨tr, rest, -, hs⟩ | ⟨a, b, rest, -, hs⟩ | ⟨rest, -, hs⟩ <;> rw [hs] at ht
  · exact Host.Outcome.next.inj ht ▸ h
  · exact (h.setScript rest).exec ht
  · exact (h.setScript rest).hostStore ht
  · exact Host.Outcome.next.inj ht ▸ afterReset _ _ _ _ _

end RegisterRules

/-- Settles O9: the rules hold after reset, where every register is zero, and each of a step's ways to go on keeps
them. -/
theorem everyStepKeepsRegisterInvariants : Obligations.EveryStepKeepsRegisterInvariants := by
  unfold Obligations.EveryStepKeepsRegisterInvariants
  refine ⟨(State.registersInv_iff _).2 (.afterReset _ _ _ _ _), fun s t hs ht => ?_⟩
  exact (State.registersInv_iff t).2 (((State.registersInv_iff s).1 hs).step ht)

end Sys2Proof.Machine
end

section
/-! PROOFS. The other statements of 10_state: reset, the register map, `RESULT`, `STATUS`, the state the host cannot
write, the staging registers, and the host's own stores. -/

namespace Sys2Proof.Machine

/-- A NEW leaves a zero history zero, whether it succeeds or fails. -/
theorem execNew_slot_of_zero {s t : State} (hs : ∀ c, s.slot c = Slot.zero) (h : exec .new s = .next t) (c : Nat) :
    t.slot c = Slot.zero := by
  rcases exec_command_cases (c := .new) h with ⟨k, rfl⟩ | ⟨u, hu, rfl⟩
  · exact hs c
  · obtain ⟨k, -, rfl⟩ := newCommand_ok hu
    exact State.zeroSlots_slot s 0 c

/-- Settles O7: every register right after reset is zero, so `READY` is 0 and PROCESS and PSAMPLE fail with cause 1. -/
theorem resetLeavesEveryRegisterZero : Obligations.ResetLeavesEveryRegisterZero := by
  unfold Obligations.ResetLeavesEveryRegisterZero
  refine ⟨State.afterReset_readNumber _ _ _ _ _, fun s => ?_⟩
  have hready : s.resetEvent.ready = false := by simp [State.ready, State.resetEvent, State.afterReset]
  have hslot : ∀ c, s.resetEvent.slot c = Slot.zero := State.afterReset_slot _ _ _ _ _
  exact ⟨State.afterReset_readNumber _ _ _ _ _, hready, rfl, rfl, rfl,
    exec_of_error (c := .process) (s := s.resetEvent) (processCommand_notReady hready),
    exec_of_error (c := .psample) (s := s.resetEvent) (psampleCommand_notReady hready),
    fun k _ h => execNew_slot_of_zero (s := s.resetEvent.setCfg k) hslot h⟩

/-- Settles O15: a history number names a history register, which is read-only. -/
theorem historyRegistersAreNumberedAndReadOnly : Obligations.HistoryRegistersAreNumberedAndReadOnly := by
  unfold Obligations.HistoryRegistersAreNumberedAndReadOnly
  intro s c hm hc
  have hreg (k : Nat) (hk : k < 4) := regOfNumber_histNumber hm hc hk
  exact ⟨readNumber_of_some (hreg 0 (by decide)), readNumber_of_some (hreg 1 (by decide)),
    readNumber_of_some (hreg 2 (by decide)), readNumber_of_some (hreg 3 (by decide)),
    fun k v hk => execWr_of_readOnly v (hreg k hk) rfl⟩

/-- Settles O16: none of the listed numbers has a register. -/
theorem unmappedNumbersReadZeroAndIgnoreWrites : Obligations.UnmappedNumbersReadZeroAndIgnoreWrites := by
  unfold Obligations.UnmappedNumbersReadZeroAndIgnoreWrites
  intro s n hn
  have hnone : regOfNumber s.maxChannels n.toNat = none := by
    rcases hn with rfl | rfl | rfl | hranges
    · rfl
    · rfl
    · rfl
    · refine regOfNumber_eq_none ?_ (by omega)
      simp only [namedNumbers, List.mem_cons, List.not_mem_nil, or_false]
      omega
  refine ⟨?_, fun v => execWr_of_none v hnone⟩
  rw [exec, execRd, readNumber_of_none hnone]
  rfl

/-- A word written to `CMD` ends in a failure or a success, and `RESULT` says which. -/
theorem State.execute_result (s : State) (w : Word) :
    (s.execute w).result = 0 ∨ ∃ k, (s.execute w).result = failureResult k := by
  rcases State.execute_cases s w with ⟨e, -, h⟩ | ⟨c, -, h⟩
  · exact .inr ⟨_, by rw [h, State.fail_result]⟩
  · rcases State.issue_cases s w (commandBody c) with ⟨k, -, hk⟩ | ⟨u, -, hu⟩
    · exact .inr ⟨k, by rw [h, hk, State.fail_result]⟩
    · exact .inl (by rw [h, hu]; rfl)

theorem State.writeReg_result (s : State) (r : Reg) (v : Word) : (s.writeReg r v).result = s.result := by
  cases r <;> rfl

/-- Settles O18: a command ends in 0 or a failure's word, its body does not see `RESULT`, and no other transaction
writes it. -/
theorem resultHoldsTheLatestCommandsOutcome : Obligations.ResultHoldsTheLatestCommandsOutcome := by
  unfold Obligations.ResultHoldsTheLatestCommandsOutcome
  refine ⟨fun w s t h => ?outcome, fun w r s => ?latest, fun n v s t hn h => ?otherNumber, fun n s t h => ?read⟩
  case outcome =>
    obtain rfl : s.execute w = t := Host.Outcome.next.inj h
    rcases s.execute_result w with h0 | ⟨k, hk⟩
    · exact .inl h0
    · rw [hk]
      exact .inr (failureResult_cases k)
  case latest => exact congrArg Host.Outcome.next (s.execute_setResult w r)
  case otherNumber =>
    rcases execWr_cases_of_ne v s hn with he | ⟨r, -, -, he⟩ <;>
      obtain rfl := Host.Outcome.next.inj (he.symm.trans h)
    · rfl
    · exact s.writeReg_result r v
  case read =>
    obtain rfl := Host.Outcome.next.inj h
    rfl

/-- A successful NEW leaves a filter. -/
theorem execNew_ready {s t : State} (h : exec .new s = .next t) (ht : t.result = 0) : t.ready = true := by
  rcases exec_command_cases (c := .new) h with ⟨k, rfl⟩ | ⟨u, hu, rfl⟩
  · exact absurd ht (failureResult_ne_zero k)
  · obtain ⟨k, -, rfl⟩ := newCommand_ok hu
    exact statusReady_ready _

/-- `STATUS` is as before, or a successful NEW has set `READY` in it. -/
theorem exec_status_cases {i : Instr} {s t : State} (h : exec i s = .next t) :
    t.status = s.status ∨ (isRunBy .new i ∧ t.result = 0 ∧ t.status = statusReady s.status) := by
  rcases exec_keeps_or_writes h with hk | ⟨c, u, hrun, hw, rfl⟩
  · exact .inl hk.status
  · cases hw with
    | new k hist => exact .inr ⟨hrun, rfl, rfl⟩
    | _ => exact .inl rfl

/-- Settles O20: `STATUS` changes by `statusReady` only, which sets bit 0 and changes nothing where it is set. -/
theorem readyIsSetBySuccessfulNewOnly : Obligations.ReadyIsSetBySuccessfulNewOnly := by
  unfold Obligations.ReadyIsSetBySuccessfulNewOnly
  refine ⟨fun i s t h hne => ?changed, fun s t => execNew_ready, fun i s t h hs => ?reserved, fun s => rfl⟩
  case changed =>
    rcases exec_status_cases h with he | ⟨hrun, hresult, hstatus⟩
    · exact absurd he hne
    · refine ⟨hrun, hresult, ?_, hstatus⟩
      by_contra hr
      exact hne (hstatus.trans (statusReady_of_ready (Bool.eq_true_of_not_eq_false hr)))
  case reserved =>
    rcases exec_status_cases h with he | ⟨-, -, hstatus⟩
    · rwa [he]
    · rw [hstatus]
      exact statusReady_reserved hs

/-- Settles O21: an instruction keeps all this state, or runs a command that succeeds and writes its own part. -/
theorem onlyTheNamedCommandsWriteReadOnlyState : Obligations.OnlyTheNamedCommandsWriteReadOnlyState := by
  unfold Obligations.OnlyTheNamedCommandsWriteReadOnlyState
  intro i s t h
  rcases exec_keeps_or_writes h with hk | ⟨c, u, hrun, hw, rfl⟩
  · simp [hk.coef, hk.actFormat, hk.actChannels, hk.dsn, hk.psY, hk.retval, hk.hist, hk.mem]
  · have hresult : u.succeed.result = 0 := rfl
    rw [hresult]
    cases hw <;> simp [hrun]

/-- Settles O43: the bodies of the three commands commute with a change of the staging registers. -/
theorem stagingHasNoRetroactiveEffect : Obligations.StagingHasNoRetroactiveEffect := by
  unfold Obligations.StagingHasNoRetroactiveEffect
  intro s t k
  exact ⟨exec_setCfg (c := .psample) (by decide) k, exec_setCfg (c := .clear) (by decide) k,
    exec_setCfg (c := .latency) (by decide) k⟩

/-- Settles O5: a store is `hostStore` in the state with the store taken from the script. -/
theorem hostStoresAndIdleSteps : Obligations.HostStoresAndIdleSteps := by
  unfold Obligations.HostStoresAndIdleSteps
  refine ⟨fun s a b rest hs => ?store, fun s hs => ?idle⟩
  case store =>
    have hstep : step s = hostStore a b (s.setScript rest) := by simp [step, hs]
    rw [hstep]
    exact ⟨fun ha => if_pos ha, fun ha => if_neg (Nat.not_lt.2 ha)⟩
  case idle => simp [step, hs]

/-- Settles O14: each number is looked up in the register map. -/
theorem registerNumbersNameTheirRegisters : Obligations.RegisterNumbersNameTheirRegisters := by
  unfold Obligations.RegisterNumbersNameTheirRegisters
  intro s
  and_intros <;> rfl

end Sys2Proof.Machine
end

section
/-! PROOFS. The statements of 20_memory: samples are little-endian, a buffer is admitted exactly when it is in range and
wholly in the set, and the format tags with their sample sizes. -/

namespace Sys2Proof.Machine

/-! ## The bytes of a sample -/

theorem Memory.load_eq_sum (m : List Host.Cell) (a n : Nat) :
    Memory.load m a n = ∑ i ∈ Finset.range n, (Memory.read m (a + i)).toNat * 2 ^ (8 * i) := by
  induction n generalizing a with
  | zero => rfl
  | succ n ih =>
    have hshift : ∀ i, (Memory.read m (a + (i + 1))).toNat * 2 ^ (8 * (i + 1)) =
        256 * ((Memory.read m (a + 1 + i)).toNat * 2 ^ (8 * i)) := by
      intro i
      rw [Nat.add_right_comm a 1 i, Nat.add_assoc]
      ring
    rw [Memory.load, ih, Finset.sum_range_succ', Finset.mul_sum, Finset.sum_congr rfl fun i _ => hshift i]
    simp [Nat.add_comm]

theorem Memory.read_store_inside {m : List Host.Cell} (a n v : Nat) (h : Memory.wf m = true) {i : Nat} (hi : i < n) :
    (Memory.read (Memory.store m a n v) (a + i)).toNat = v / 2 ^ (8 * i) % 256 := by
  induction n generalizing m a v i with
  | zero => exact absurd hi (Nat.not_lt_zero i)
  | succ n ih =>
    have hw := Memory.wf_write a (BitVec.ofNat 8 v) h
    rw [Memory.store]
    cases i with
    | zero =>
      rw [Nat.add_zero a, Memory.read_store_outside _ _ _ _ hw (.inl (Nat.lt_add_one a)), Memory.read_write _ _ _ h]
      simp
    | succ i =>
      have haddr : a + (i + 1) = a + 1 + i := by omega
      rw [haddr, ih _ _ hw (Nat.lt_of_succ_lt_succ hi), Nat.div_div_eq_div_mul, Nat.mul_succ, Nat.pow_add,
        Nat.mul_comm (2 ^ (8 * i))]

/-- Settles O44: by induction on the number of bytes, the lowest address first. -/
theorem samplesAreLittleEndian : Obligations.SamplesAreLittleEndian := by
  unfold Obligations.SamplesAreLittleEndian
  exact ⟨Memory.load_eq_sum, fun _ a n v h =>
    ⟨fun _ hi => Memory.read_store_inside a n v h hi, fun j hj => Memory.read_store_outside a n v j h hj⟩⟩

/-! ## Runs of addresses

The runs that `uncovered` works on are never empty, so none of them is left exactly when every address of each is in one
of the regions. -/

theorem mem_runOf {lo hi : Nat} {run : Nat × Nat} : run ∈ runOf lo hi ↔ run = (lo, hi) ∧ lo < hi := by
  unfold runOf
  split <;> simp [*]

theorem lt_of_mem_runOf {lo hi : Nat} {run : Nat × Nat} (h : run ∈ runOf lo hi) : run.1 < run.2 := by
  obtain ⟨rfl, hlt⟩ := mem_runOf.1 h
  exact hlt

theorem lt_of_mem_regionLeaves {r : Region} {run left : Nat × Nat} (h : left ∈ regionLeaves r run) :
    left.1 < left.2 :=
  (List.mem_append.1 h).elim lt_of_mem_runOf lt_of_mem_runOf

theorem withinRegions_of_le (regions : List Region) {lo hi : Nat} (h : hi ≤ lo) : WithinRegions regions lo hi :=
  fun _ hl hh => absurd (Nat.lt_of_le_of_lt hl hh) (Nat.not_lt.2 h)

theorem not_withinRegions_nil {lo hi : Nat} (h : lo < hi) : ¬ WithinRegions [] lo hi := by
  intro hw
  obtain ⟨r, hr, -⟩ := hw lo (Nat.le_refl lo) h
  exact List.not_mem_nil hr

theorem forall_mem_runOf_withinRegions {regions : List Region} {lo hi : Nat} :
    (∀ run ∈ runOf lo hi, WithinRegions regions run.1 run.2) ↔ WithinRegions regions lo hi := by
  constructor
  · intro h
    rcases Nat.lt_or_ge lo hi with hlt | hge
    · exact h (lo, hi) (mem_runOf.2 ⟨rfl, hlt⟩)
    · exact withinRegions_of_le regions hge
  · intro h run hrun
    obtain ⟨rfl, -⟩ := mem_runOf.1 hrun
    exact h

/-- An address is below the first region, in it, or above it. -/
theorem withinRegions_cons {r : Region} {regions : List Region} {lo hi : Nat} :
    WithinRegions (r :: regions) lo hi ↔
      WithinRegions regions lo (min hi r.base) ∧ WithinRegions regions (max lo (r.base + r.size)) hi := by
  simp only [WithinRegions, List.mem_cons, exists_eq_or_imp]
  constructor
  · intro h
    exact ⟨fun a hl hh => (h a hl (by omega)).resolve_left (by omega),
      fun a hl hh => (h a (by omega) hh).resolve_left (by omega)⟩
  · rintro ⟨hbelow, habove⟩ a hl hh
    by_cases hb : a < r.base
    · exact .inr (hbelow a hl (by omega))
    · by_cases he : a < r.base + r.size
      · exact .inl ⟨by omega, he⟩
      · exact .inr (habove a (by omega) hh)

/-- What a region leaves of a run is in the other regions exactly when the run is in all of them. -/
theorem forall_mem_regionLeaves_withinRegions {r : Region} {regions : List Region} {run : Nat × Nat} :
    (∀ left ∈ regionLeaves r run, WithinRegions regions left.1 left.2) ↔ WithinRegions (r :: regions) run.1 run.2 := by
  rw [regionLeaves, List.forall_mem_append, forall_mem_runOf_withinRegions, forall_mem_runOf_withinRegions,
    withinRegions_cons]

theorem uncovered_eq_nil_iff {regions : List Region} {runs : List (Nat × Nat)} (h : ∀ run ∈ runs, run.1 < run.2) :
    uncovered regions runs = [] ↔ ∀ run ∈ runs, WithinRegions regions run.1 run.2 := by
  induction regions generalizing runs with
  | nil =>
    rw [uncovered, List.eq_nil_iff_forall_not_mem]
    exact forall₂_congr fun run hrun => (iff_false_intro (not_withinRegions_nil (h run hrun))).symm
  | cons r regions ih =>
    have hleft : ∀ left ∈ runs.flatMap (regionLeaves r), left.1 < left.2 := by
      intro left hl
      obtain ⟨run, -, hl⟩ := List.mem_flatMap.1 hl
      exact lt_of_mem_regionLeaves hl
    rw [uncovered, ih hleft, List.forall_mem_flatMap]
    exact forall₂_congr fun run _ => forall_mem_regionLeaves_withinRegions

theorem covers_iff (regions : List Region) (lo hi : Nat) :
    covers regions lo hi = true ↔ WithinRegions regions lo hi := by
  rw [covers, List.isEmpty_iff, uncovered_eq_nil_iff fun _ => lt_of_mem_runOf, forall_mem_runOf_withinRegions]

/-- Settles O45: the test is the bound and `covers`, which says of every address that it is in a region. -/
theorem admittedMeansEveryAddressIsInTheSet : Obligations.AdmittedMeansEveryAddressIsInTheSet := by
  unfold Obligations.AdmittedMeansEveryAddressIsInTheSet
  intro addrWidth regions base nbytes
  rw [admitted, Bool.and_eq_true, decide_eq_true_eq, covers_iff]

/-! ## Format tags -/

theorem formatOfTag_eq_none {tag : Word} (h : tag.toNat = 0 ∨ 6 ≤ tag.toNat) : formatOfTag tag = none := by
  unfold formatOfTag
  split
  case h_6 => rfl
  all_goals omega

/-- Settles O60: the five tags by evaluation, every other one by the last case of `formatOfTag`. -/
theorem formatTagsAndSampleSizes : Obligations.FormatTagsAndSampleSizes := by
  unfold Obligations.FormatTagsAndSampleSizes
  exact ⟨rfl, rfl, rfl, rfl, rfl, rfl, rfl, rfl, rfl, rfl, fun _ => formatOfTag_eq_none⟩

end Sys2Proof.Machine
end

section
/-! PROOFS. The statements of 30_encoding: decoding gives back every well-formed instruction, and what each word written
to `CMD` does. -/

namespace Sys2Proof

/-! ## Command words (30_encoding R47, R48) -/

@[simp] theorem decodeCommand_encodeCommand (c : Command) : decodeCommand (encodeCommand c) = .ok c := by
  cases c <;> rfl

theorem decodeCommand_of_reserved {w : Word} (h : w.toNat / 256 ≠ 0) : decodeCommand w = .error .reservedBits :=
  if_pos h

theorem decodeCommand_of_noOpcode {w : Word} (hreserved : w.toNat / 256 = 0) (h : w.toNat = 0 ∨ 8 ≤ w.toNat) :
    decodeCommand w = .error .unknownOpcode := by
  rw [decodeCommand, if_neg (not_not.2 hreserved)]
  split
  case h_8 => rfl
  all_goals omega

/-- The WR of a command word is no well-formed `wr`: the command's constructor stands for it. -/
theorem wr_encodeCommand_wellFormed (c : Command) : (Instr.wr cmdNumber (encodeCommand c)).wellFormed = false := by
  cases c <;> rfl

/-! ## The instruction of a transaction made of its fields -/

theorem decode_make_read (r : RegNum) (d : Word) : decode (Transaction.make false r d) = .rd r := by
  simp [decode]

theorem decode_make_write_of_ne {r : RegNum} (d : Word) (h : r ≠ cmdNumber) :
    decode (Transaction.make true r d) = .wr r d := by
  simp [decode, h]

theorem decode_commandTransaction_of_ok {w : Word} {c : Command} (h : decodeCommand w = .ok c) :
    decode (commandTransaction w) = c.toInstr := by
  simp [decode, commandTransaction, h]

theorem decode_commandTransaction_of_error {w : Word} {e : CommandError} (h : decodeCommand w = .error e) :
    decode (commandTransaction w) = .wr cmdNumber w := by
  simp [decode, commandTransaction, h]

theorem decode_encode_command (c : Command) : decode (encode c.toInstr) = c.toInstr := by
  have hencode : encode c.toInstr = commandTransaction (encodeCommand c) := by cases c <;> rfl
  rw [hencode, decode_commandTransaction_of_ok (decodeCommand_encodeCommand c)]

/-- A `wr` is decoded back unless its word, written to `CMD`, names a command: that `wr` is not well-formed. -/
theorem decode_encode_wr {r : RegNum} {d : Word} (h : (Instr.wr r d).wellFormed = true) :
    decode (encode (.wr r d)) = .wr r d := by
  by_cases hr : r = cmdNumber
  · subst hr
    cases hd : decodeCommand d with
    | error e => exact decode_commandTransaction_of_error hd
    | ok c =>
      rw [Machine.encodeCommand_of_decodeCommand hd, wr_encodeCommand_wellFormed] at h
      cases h
  · exact decode_make_write_of_ne d hr

/-- Settles O1: by cases on the instruction, a WR by what its register and word name. -/
theorem encodedInstructionDecodesBack : Obligations.EncodedInstructionDecodesBack := by
  unfold Obligations.EncodedInstructionDecodesBack
  intro i h
  cases i with
  | wr r d => exact decode_encode_wr h
  | rd r => exact decode_make_read r 0
  | new => exact decode_encode_command .new
  | reinit => exact decode_encode_command .reinit
  | process => exact decode_encode_command .process
  | psample => exact decode_encode_command .psample
  | clear => exact decode_encode_command .clear
  | latency => exact decode_encode_command .latency
  | design => exact decode_encode_command .design

/-- Settles O2: the command words by `decodeCommand_encodeCommand`, their WRs by `decode_encode_command`, the unused
opcodes by the last case of `decodeCommand`. -/
theorem opcodeMapNamesSevenCommands : Obligations.OpcodeMapNamesSevenCommands := by
  unfold Obligations.OpcodeMapNamesSevenCommands
  have unused (b : Nat) (hb : b = 0 ∨ (8 ≤ b ∧ b ≤ 255)) :
      decodeCommand (BitVec.ofNat 64 b) = .error .unknownOpcode := by
    have htoNat : (BitVec.ofNat 64 b).toNat = b := by
      rw [BitVec.toNat_ofNat]
      exact Nat.mod_eq_of_lt (by omega)
    exact decodeCommand_of_noOpcode (by omega) (by omega)
  exact ⟨decodeCommand_encodeCommand .new, decodeCommand_encodeCommand .reinit, decodeCommand_encodeCommand .process,
    decodeCommand_encodeCommand .psample, decodeCommand_encodeCommand .clear, decodeCommand_encodeCommand .latency,
    decodeCommand_encodeCommand .design, unused,
    decode_encode_command .new, decode_encode_command .reinit, decode_encode_command .process,
    decode_encode_command .psample, decode_encode_command .clear, decode_encode_command .latency,
    decode_encode_command .design,
    decode_make_write_of_ne (r := 0x001) 1 (by decide),
    decode_make_write_of_ne (r := 0x003) 0x4018000000000000 (by decide),
    decode_make_read 0x009 0, decode_make_read 0x102 0xFFFF⟩

end Sys2Proof

namespace Sys2Proof.Machine

/-! ## What a WR to `CMD` runs -/

theorem exec_wr_cmd_of_error {w : Word} {e : CommandError} (s : State) (h : decodeCommand w = .error e) :
    exec (.wr cmdNumber w) s = .next { s with cmd := w, result := failureResult (causeOfCommandError e) } := by
  rw [exec, execWr_cmd, State.execute, h]
  rfl

theorem exec_wr_encodeCommand (c : Command) (s : State) :
    exec (.wr cmdNumber (encodeCommand c)) s = exec c.toInstr s := by
  rw [exec_command, exec, execWr_cmd, State.execute, decodeCommand_encodeCommand]

/-! ## The reserved bits and the low byte of a command word (30_encoding R47) -/

theorem reserved_eq_zero_iff (w : Word) : w.extractLsb' 8 56 = 0 ↔ w.toNat / 256 = 0 := by
  have hlt : w.toNat / 256 < 2 ^ 56 := by omega
  rw [← BitVec.toNat_inj, BitVec.extractLsb'_toNat, Nat.shiftRight_eq_div_pow, Nat.mod_eq_of_lt hlt]
  rfl

theorem toNat_lowByte {w : Word} (h : w.toNat / 256 = 0) : (w.extractLsb' 0 8).toNat = w.toNat := by
  rw [BitVec.extractLsb'_toNat, Nat.shiftRight_zero]
  exact Nat.mod_eq_of_lt (by omega)

/-- With the reserved bits clear, a word of a command's low byte is the command's word. -/
theorem exec_wr_cmd_of_lowByte {w : Word} (hreserved : w.toNat / 256 = 0) (c : Command) (s : State)
    (h : w.extractLsb' 0 8 = (encodeCommand c).extractLsb' 0 8) : exec (.wr cmdNumber w) s = exec c.toInstr s := by
  have hc : (encodeCommand c).toNat / 256 = 0 := by cases c <;> rfl
  have hw : w.toNat = (encodeCommand c).toNat := by
    rw [← toNat_lowByte hreserved, h, toNat_lowByte hc]
  rw [BitVec.eq_of_toNat_eq hw, exec_wr_encodeCommand]

/-- Settles O3: the reserved bits are the word over 256, and with them clear the low byte is the word. -/
theorem commandWordIsExecuted : Obligations.CommandWordIsExecuted := by
  unfold Obligations.CommandWordIsExecuted
  intro w s
  rw [ne_eq, reserved_eq_zero_iff]
  refine ⟨fun hreserved => exec_wr_cmd_of_error s (decodeCommand_of_reserved hreserved), fun hreserved => ?clear⟩
  case clear =>
    have command := fun c => exec_wr_cmd_of_lowByte hreserved c s
    refine ⟨command .new, command .reinit, command .process, command .psample, command .clear, command .latency,
      command .design, fun hlow => exec_wr_cmd_of_error s (decodeCommand_of_noOpcode hreserved ?noOpcode)⟩
    case noOpcode =>
      rw [← toNat_lowByte hreserved]
      exact hlow.imp_left (congrArg BitVec.toNat)

end Sys2Proof.Machine
end

section
/-! PROOFS. Rounding to nearest even (40_numerics R60): the values of the magnitude patterns, and which pattern a ratio of
naturals is rounded to, told by the midpoints between neighbouring patterns. -/

namespace Sys2Proof.Machine

/-! ## The values of the magnitude patterns -/

/-- A pattern by its exponent field and its fraction field. -/
theorem quantaOfBits_fields {frac f : Nat} (e : Nat) (hf : f < 2 ^ frac) :
    quantaOfBits frac (e * 2 ^ frac + f) = if e = 0 then f else (2 ^ frac + f) * 2 ^ (e - 1) := by
  have he : (e * 2 ^ frac + f) / 2 ^ frac = e := by
    rw [Nat.mul_comm, Nat.mul_add_div (Nat.two_pow_pos frac), Nat.div_eq_of_lt hf, Nat.add_zero]
  have hm : (e * 2 ^ frac + f) % 2 ^ frac = f := by
    rw [Nat.mul_comm, Nat.mul_add_mod, Nat.mod_eq_of_lt hf]
  simp only [quantaOfBits, he, hm]

/-- How far the value of a pattern is below that of the next pattern: for binary64 `unitOf`, written for any format. -/
def gapAbove (frac p : Nat) : Nat := 2 ^ (p / 2 ^ frac - 1)

theorem gapAbove_pos (frac p : Nat) : 0 < gapAbove frac p := Nat.two_pow_pos _

theorem gapAbove_mono (frac : Nat) {p r : Nat} (h : p ≤ r) : gapAbove frac p ≤ gapAbove frac r :=
  Nat.pow_le_pow_right (by decide) (Nat.sub_le_sub_right (Nat.div_le_div_right h) 1)

theorem quantaOfBits_succ (frac p : Nat) :
    quantaOfBits frac (p + 1) = quantaOfBits frac p + gapAbove frac p := by
  have hf : p % 2 ^ frac < 2 ^ frac := Nat.mod_lt _ (Nat.two_pow_pos frac)
  have hp : p = p / 2 ^ frac * 2 ^ frac + p % 2 ^ frac := by rw [Nat.mul_comm, Nat.div_add_mod]
  rw [gapAbove]
  generalize p / 2 ^ frac = e at hp ⊢
  generalize p % 2 ^ frac = f at hp hf
  subst hp
  rw [quantaOfBits_fields e hf]
  by_cases hnext : f + 1 < 2 ^ frac
  · rw [Nat.add_assoc, quantaOfBits_fields e hnext]
    cases e with
    | zero => simp
    | succ e => simp; ring
  · have hcarry : e * 2 ^ frac + f + 1 = (e + 1) * 2 ^ frac + 0 := by
      rw [Nat.add_mul]
      omega
    rw [hcarry, quantaOfBits_fields (e + 1) (Nat.two_pow_pos frac)]
    obtain ⟨g, hg⟩ : ∃ g, 2 ^ frac = g + 1 := ⟨2 ^ frac - 1, by omega⟩
    obtain rfl : f = g := by omega
    cases e with
    | zero => simp [hg]
    | succ e =>
      simp [hg, pow_succ]
      ring

theorem quantaOfBits_strictMono (frac : Nat) : StrictMono (quantaOfBits frac) :=
  strictMono_nat_of_lt_succ fun p => by
    rw [quantaOfBits_succ]
    exact Nat.lt_add_of_pos_right (gapAbove_pos frac p)

theorem quantaOfBits_mono (frac : Nat) : Monotone (quantaOfBits frac) := (quantaOfBits_strictMono frac).monotone

/-- The value of a pattern given as `k` dropped bits and a significand, as rounding makes it. -/
theorem quantaOfBits_scaled {frac k m : Nat} (hm : m < 2 ^ (frac + 1)) (hk : k = 0 ∨ 2 ^ frac ≤ m) :
    quantaOfBits frac (k * 2 ^ frac + m) = m * 2 ^ k := by
  by_cases hsmall : m < 2 ^ frac
  · obtain rfl : k = 0 := by omega
    simpa using quantaOfBits_zero_exp hsmall
  · obtain ⟨f, rfl⟩ : ∃ f, m = 2 ^ frac + f := ⟨m - 2 ^ frac, by omega⟩
    rw [pow_succ] at hm
    rw [← Nat.add_assoc, ← Nat.succ_mul, quantaOfBits_fields _ (by omega)]
    simp

theorem gapAbove_scaled {frac k m : Nat} (hm : m < 2 ^ (frac + 1)) (hk : k = 0 ∨ 2 ^ frac ≤ m) :
    gapAbove frac (k * 2 ^ frac + m) = 2 ^ k := by
  rw [pow_succ] at hm
  rw [gapAbove, Nat.mul_comm, Nat.mul_add_div (Nat.two_pow_pos frac)]
  by_cases hsmall : m < 2 ^ frac
  · obtain rfl : k = 0 := by omega
    simp [Nat.div_eq_of_lt hsmall]
  · have hone : m / 2 ^ frac = 1 := Nat.div_eq_of_lt_le (by omega) (by omega)
    rw [hone, Nat.add_sub_cancel]

/-! ## The pattern at or below a ratio -/

/-- The largest pattern whose value is not above `num / den` quanta, not held to that of infinity. -/
def floorBits (frac num den : Nat) : Nat :=
  droppedBits frac (num / den) * 2 ^ frac + num / (den * 2 ^ droppedBits frac (num / den))

theorem floor64_eq (num den : Nat) : floor64 num den = min (floorBits 52 num den) infBits := rfl

/-- The significand that rounding works on fits in `frac + 1` bits, and fills them when bits are dropped. -/
theorem significand_bounds (frac num den : Nat) :
    num / (den * 2 ^ droppedBits frac (num / den)) < 2 ^ (frac + 1) ∧
      (droppedBits frac (num / den) = 0 ∨ 2 ^ frac ≤ num / (den * 2 ^ droppedBits frac (num / den))) := by
  rw [← Nat.div_div_eq_div_mul]
  generalize num / den = n
  have hlog : n < 2 ^ (Nat.log2 n + 1) := Nat.lt_log2_self
  constructor
  · rw [Nat.div_lt_iff_lt_mul (Nat.two_pow_pos _), ← Nat.pow_add]
    exact lt_of_lt_of_le hlog (Nat.pow_le_pow_right (by decide) (by rw [droppedBits]; omega))
  · by_cases hk : droppedBits frac n = 0
    · exact .inl hk
    · have hlarge : Nat.log2 n = frac + droppedBits frac n := by
        rw [droppedBits] at hk ⊢
        omega
      have hn : n ≠ 0 := by
        rintro rfl
        exact hk (by simp [droppedBits])
      right
      rw [Nat.le_div_iff_mul_le (Nat.two_pow_pos _), ← Nat.pow_add, ← hlarge]
      exact Nat.log2_self_le hn

theorem quantaOfBits_floorBits (frac num den : Nat) :
    quantaOfBits frac (floorBits frac num den) =
      num / (den * 2 ^ droppedBits frac (num / den)) * 2 ^ droppedBits frac (num / den) :=
  have ⟨hm, hk⟩ := significand_bounds frac num den
  quantaOfBits_scaled hm hk

theorem gapAbove_floorBits (frac num den : Nat) :
    gapAbove frac (floorBits frac num den) = 2 ^ droppedBits frac (num / den) :=
  have ⟨hm, hk⟩ := significand_bounds frac num den
  gapAbove_scaled hm hk

/-- What is above the value of the floor is the remainder of the division by the gap. -/
theorem den_mul_quantaOfBits_floorBits_add (frac num den : Nat) :
    den * quantaOfBits frac (floorBits frac num den) + num % (den * 2 ^ droppedBits frac (num / den)) = num := by
  conv_rhs => rw [← Nat.div_add_mod num (den * 2 ^ droppedBits frac (num / den))]
  rw [quantaOfBits_floorBits]
  ring

theorem floorBits_le (frac num den : Nat) : den * quantaOfBits frac (floorBits frac num den) ≤ num :=
  Nat.le.intro (den_mul_quantaOfBits_floorBits_add frac num den)

theorem lt_floorBits_succ (frac num : Nat) {den : Nat} (hden : 0 < den) :
    num < den * quantaOfBits frac (floorBits frac num den + 1) := by
  have hmod := Nat.mod_lt num (Nat.mul_pos hden (Nat.two_pow_pos (droppedBits frac (num / den))))
  have hsum := den_mul_quantaOfBits_floorBits_add frac num den
  rw [quantaOfBits_succ, gapAbove_floorBits, Nat.mul_add]
  omega

/-- The patterns up to the floor are those whose value is not above the ratio. -/
theorem le_floorBits_iff {frac num den : Nat} (hden : 0 < den) (p : Nat) :
    p ≤ floorBits frac num den ↔ den * quantaOfBits frac p ≤ num := by
  constructor
  · intro h
    exact le_trans (Nat.mul_le_mul_left den (quantaOfBits_mono frac h)) (floorBits_le frac num den)
  · intro h
    by_contra hlt
    have hmono := Nat.mul_le_mul_left den (quantaOfBits_mono frac (show floorBits frac num den + 1 ≤ p by omega))
    have hnext := lt_floorBits_succ frac num hden
    omega

/-! ## The nearest pattern -/

/-- The pattern that `num / den` quanta are rounded to, not held to that of infinity. -/
def nearestBits (frac num den : Nat) : Nat :=
  droppedBits frac (num / den) * 2 ^ frac + nearestEven num (den * 2 ^ droppedBits frac (num / den))

theorem roundMagnitude_eq (frac expMax num den : Nat) :
    roundMagnitude frac expMax num den = min (nearestBits frac num den) (expMax * 2 ^ frac) := rfl

/-- Twice the value in the middle between a pattern and the next one. -/
def twiceMidpoint (frac p : Nat) : Nat := quantaOfBits frac p + quantaOfBits frac (p + 1)

/-- The floor or the next pattern: which of them the midpoint says, and on the midpoint the parity. -/
theorem nearestBits_eq {frac : Nat} (hfrac : 0 < frac) (num den : Nat) :
    nearestBits frac num den =
      if 2 * num < den * twiceMidpoint frac (floorBits frac num den) then floorBits frac num den
      else if den * twiceMidpoint frac (floorBits frac num den) < 2 * num then floorBits frac num den + 1
      else if floorBits frac num den % 2 = 0 then floorBits frac num den else floorBits frac num den + 1 := by
  have hmid : den * twiceMidpoint frac (floorBits frac num den) =
      2 * (den * quantaOfBits frac (floorBits frac num den)) + den * 2 ^ droppedBits frac (num / den) := by
    rw [twiceMidpoint, quantaOfBits_succ, gapAbove_floorBits]
    ring
  have hsum := den_mul_quantaOfBits_floorBits_add frac num den
  have heven : droppedBits frac (num / den) * 2 ^ frac % 2 = 0 := by
    obtain ⟨n, rfl⟩ : ∃ n, frac = n + 1 := ⟨frac - 1, by omega⟩
    rw [Nat.pow_succ, ← Nat.mul_assoc, Nat.mul_mod_left]
  have hlow : 2 * num < den * twiceMidpoint frac (floorBits frac num den) ↔
      2 * (num % (den * 2 ^ droppedBits frac (num / den))) < den * 2 ^ droppedBits frac (num / den) := by omega
  have hhigh : den * twiceMidpoint frac (floorBits frac num den) < 2 * num ↔
      den * 2 ^ droppedBits frac (num / den) < 2 * (num % (den * 2 ^ droppedBits frac (num / den))) := by omega
  have hparity : floorBits frac num den % 2 = 0 ↔
      num / (den * 2 ^ droppedBits frac (num / den)) % 2 = 0 := by
    rw [floorBits, Nat.add_mod, heven]
    simp
  simp only [hlow, hhigh, hparity]
  simp only [nearestBits, nearestEven, floorBits]
  split_ifs <;> omega

/-- The rule of rounding: a pattern is below the result exactly when the midpoint above the pattern is below the ratio, or
is the ratio and the pattern is odd. -/
theorem lt_nearestBits_iff {frac : Nat} (hfrac : 0 < frac) {num den : Nat} (hden : 0 < den) (p : Nat) :
    p < nearestBits frac num den ↔
      den * twiceMidpoint frac p < 2 * num ∨ (den * twiceMidpoint frac p = 2 * num ∧ p % 2 = 1) := by
  have hlo := floorBits_le frac num den
  have hhi := lt_floorBits_succ frac num hden
  rcases Nat.lt_trichotomy p (floorBits frac num den) with hlt | rfl | hgt
  · have hmid : den * twiceMidpoint frac p < 2 * num := by
      have h1 := (Nat.mul_lt_mul_left hden).2 (quantaOfBits_strictMono frac hlt)
      have h2 := Nat.mul_le_mul_left den (quantaOfBits_mono frac (show p + 1 ≤ floorBits frac num den from hlt))
      rw [twiceMidpoint, Nat.mul_add]
      omega
    have hres : p < nearestBits frac num den := by
      rw [nearestBits_eq hfrac]
      split_ifs <;> omega
    exact iff_of_true hres (.inl hmid)
  · rw [nearestBits_eq hfrac]
    split_ifs <;> omega
  · have hmid : 2 * num < den * twiceMidpoint frac p := by
      have h1 := Nat.mul_le_mul_left den (quantaOfBits_mono frac (show floorBits frac num den + 1 ≤ p from hgt))
      have h2 := Nat.mul_le_mul_left den (quantaOfBits_mono frac (show floorBits frac num den + 1 ≤ p + 1 by omega))
      rw [twiceMidpoint, Nat.mul_add]
      omega
    have hres : ¬p < nearestBits frac num den := by
      rw [nearestBits_eq hfrac]
      split_ifs <;> omega
    exact iff_of_false hres (by omega)

/-- Rounding keeps the order of ratios. -/
theorem nearestBits_mono {frac : Nat} (hfrac : 0 < frac) {num den num' den' : Nat} (hden : 0 < den) (hden' : 0 < den')
    (h : num * den' ≤ num' * den) : nearestBits frac num den ≤ nearestBits frac num' den' := by
  refine le_of_forall_lt fun p hp => ?_
  rw [lt_nearestBits_iff hfrac hden] at hp
  rw [lt_nearestBits_iff hfrac hden']
  have hle : den * twiceMidpoint frac p ≤ 2 * num := by omega
  rcases Nat.lt_trichotomy (den' * twiceMidpoint frac p) (2 * num') with hlt | heq | hgt
  · exact .inl hlt
  · refine .inr ⟨heq, (hp.resolve_left fun hlt => ?_).2⟩
    nlinarith
  · nlinarith

/-- A value of the format is its own nearest value. -/
theorem nearestBits_quantaOfBits {frac : Nat} (p : Nat) {d : Nat} (hd : 0 < d) :
    nearestBits frac (quantaOfBits frac p * d) d = p := by
  have h := roundMagnitude_exact (frac := frac) (expMax := p + 1) (p := p) (d := d)
    (le_trans (Nat.le_succ p) (Nat.le_mul_of_pos_right _ (Nat.two_pow_pos frac))) hd
  have hp : p < (p + 1) * 2 ^ frac :=
    lt_of_lt_of_le (Nat.lt_succ_self p) (Nat.le_mul_of_pos_right _ (Nat.two_pow_pos frac))
  rw [roundMagnitude_eq] at h
  omega

/-- No pattern is nearer than the result, and one that is as near leaves it even. -/
theorem nearestBits_nearest {frac : Nat} (hfrac : 0 < frac) {num den : Nat} (hden : 0 < den) {p : Nat}
    (hp : p ≠ nearestBits frac num den) :
    distanceTo frac num den (nearestBits frac num den) ≤ distanceTo frac num den p ∧
      (distanceTo frac num den (nearestBits frac num den) = distanceTo frac num den p →
        nearestBits frac num den % 2 = 0) := by
  have hrule := lt_nearestBits_iff hfrac (num := num) hden
  generalize nearestBits frac num den = r at hrule hp ⊢
  simp only [distanceTo, ← Nat.cast_mul]
  rcases Nat.lt_or_gt_of_ne hp with hlt | hgt
  · obtain ⟨s, rfl⟩ : ∃ s, r = s + 1 := ⟨r - 1, by omega⟩
    have hbelow := (hrule s).1 (Nat.lt_add_one s)
    have hps := Nat.mul_le_mul_left den (quantaOfBits_mono frac (show p ≤ s by omega))
    have hstep := (Nat.mul_lt_mul_left hden).2 (quantaOfBits_strictMono frac (Nat.lt_add_one s))
    rw [twiceMidpoint, Nat.mul_add] at hbelow
    constructor <;> omega
  · have habove := mt (hrule r).2 (Nat.lt_irrefl r)
    have hrp := Nat.mul_le_mul_left den (quantaOfBits_mono frac (show r + 1 ≤ p from hgt))
    have hstep := (Nat.mul_lt_mul_left hden).2 (quantaOfBits_strictMono frac (Nat.lt_add_one r))
    rw [twiceMidpoint, Nat.mul_add] at habove
    constructor <;> omega

/-! ## The numbers that are the value of some pattern -/

/-- A value is at most `frac + 1` significant bits of its pattern's gap. -/
theorem quantaOfBits_eq_mul_gapAbove (frac p : Nat) :
    ∃ m, m < 2 ^ (frac + 1) ∧ quantaOfBits frac p = m * gapAbove frac p := by
  have hf : p % 2 ^ frac < 2 ^ frac := Nat.mod_lt _ (Nat.two_pow_pos frac)
  rw [pow_succ]
  by_cases hp : p < 2 ^ frac
  · exact ⟨p, by omega, by simp [quantaOfBits_zero_exp hp, gapAbove, Nat.div_eq_of_lt hp]⟩
  · exact ⟨_, by omega, quantaOfBits_pos_exp (Nat.le_of_not_lt hp)⟩

theorem quantaOfBits_eq_mul_two_pow (frac p : Nat) : ∃ m j, m < 2 ^ (frac + 1) ∧ quantaOfBits frac p = m * 2 ^ j :=
  have ⟨m, hm, hq⟩ := quantaOfBits_eq_mul_gapAbove frac p
  ⟨m, _, hm, hq⟩

/-- Every number of at most `frac + 1` significant bits is the value of a pattern. -/
theorem exists_quantaOfBits {frac m : Nat} (hm : m < 2 ^ (frac + 1)) (j : Nat) :
    ∃ p, quantaOfBits frac p = m * 2 ^ j := by
  induction j with
  | zero => exact ⟨m, by simpa using quantaOfBits_scaled (k := 0) hm (.inl rfl)⟩
  | succ j ih =>
    obtain ⟨p, hp⟩ := ih
    have hdouble : ∃ r, quantaOfBits frac r = 2 * quantaOfBits frac p := by
      by_cases hsmall : p < 2 ^ frac
      · refine ⟨2 * p, ?_⟩
        have h := quantaOfBits_scaled (frac := frac) (k := 0) (m := 2 * p) (by rw [pow_succ]; omega) (.inl rfl)
        rw [quantaOfBits_zero_exp hsmall]
        simpa using h
      · have hle : 2 ^ frac ≤ p := by omega
        refine ⟨p + 2 ^ frac, ?_⟩
        rw [quantaOfBits_pos_exp hle, quantaOfBits_pos_exp (le_trans hle (Nat.le_add_right _ _)), Nat.add_mod_right,
          Nat.add_div_right _ (Nat.two_pow_pos frac), Nat.succ_sub_one]
        have hexp : 2 ^ (p / 2 ^ frac) = 2 * 2 ^ (p / 2 ^ frac - 1) := by
          have := Nat.div_pos hle (Nat.two_pow_pos frac)
          rw [← pow_succ', Nat.sub_add_cancel this]
        rw [hexp]
        ring
    obtain ⟨r, hr⟩ := hdouble
    exact ⟨r, by rw [hr, hp, pow_succ]; ring⟩

/-! ## The two formats -/

theorem round64_eq (num den : Nat) : round64 num den = min (nearestBits 52 num den) infBits := rfl

theorem round32_le (num den : Nat) : round32 num den ≤ infBits32 := Nat.min_le_right _ _

theorem round32_mono {num den num' den' : Nat} (hden : 0 < den) (hden' : 0 < den') (h : num * den' ≤ num' * den) :
    round32 num den ≤ round32 num' den' :=
  min_le_min_right _ (nearestBits_mono (by decide) hden hden' h)

/-- An infinity stands for `2^1024`, the value its pattern would have. -/
theorem quantaOfBits_infBits : quantaOfBits 52 infBits = 2 ^ 2098 := by decide +kernel

/-- Overflow begins in the middle between the largest finite value and the value the pattern of infinity would have. -/
theorem infinity_le_nearestBits_iff {frac inf bound : Nat} (hfrac : 0 < frac) (hinf : inf % 2 = 0) (hpos : 0 < inf)
    (hbound : twiceMidpoint frac (inf - 1) = 2 * bound) {num den : Nat} (hden : 0 < den) :
    min (nearestBits frac num den) inf = inf ↔ den * bound ≤ num := by
  have hrule := lt_nearestBits_iff hfrac (num := num) hden (inf - 1)
  rw [hbound, Nat.mul_left_comm] at hrule
  omega

theorem round64_eq_infBits_iff {num den : Nat} (hden : 0 < den) :
    round64 num den = infBits ↔ den * ((2 ^ 54 - 1) * 2 ^ 2044) ≤ num :=
  infinity_le_nearestBits_iff (by decide) (by decide) (by decide) (by decide +kernel) hden

theorem round32_eq_infBits32_iff {num den : Nat} (hden : 0 < den) :
    round32 num den = infBits32 ↔ den * ((2 ^ 25 - 1) * 2 ^ 252) ≤ num :=
  infinity_le_nearestBits_iff (by decide) (by decide) (by decide) (by decide +kernel) hden

/-- Held to the pattern of infinity, a finite result still has no nearer pattern. -/
theorem capped_nearestBits_nearest {frac inf : Nat} (hfrac : 0 < frac) {num den p : Nat} (hden : 0 < den)
    (hfin : min (nearestBits frac num den) inf < inf) (hp : p ≠ min (nearestBits frac num den) inf) :
    distanceTo frac num den (min (nearestBits frac num den) inf) ≤ distanceTo frac num den p ∧
      (distanceTo frac num den (min (nearestBits frac num den) inf) = distanceTo frac num den p →
        min (nearestBits frac num den) inf % 2 = 0) := by
  rw [min_eq_left (by omega)] at hp ⊢
  exact nearestBits_nearest hfrac hden hp

/-- A number of at most 53 significant bits, held to the value of infinity, is what its rounded pattern stands for. -/
theorem quantaOfBits_round64 {m : Nat} (hm : m < 2 ^ 53) (j : Nat) {d : Nat} (hd : 0 < d) :
    quantaOfBits 52 (round64 (m * 2 ^ j * d) d) = min (m * 2 ^ j) (2 ^ 2098) := by
  obtain ⟨p, hp⟩ := exists_quantaOfBits hm j
  rw [round64_eq, ← hp, nearestBits_quantaOfBits p hd, (quantaOfBits_mono 52).map_min, quantaOfBits_infBits]

/-! ## The statement on rounding -/

/-- Settles O46: both formats by the rule of rounding, the narrowing by its definition. -/
theorem roundingIsToNearestEven : Obligations.RoundingIsToNearestEven := by
  unfold Obligations.RoundingIsToNearestEven
  refine ⟨fun num den p hden =>
      ⟨round64_eq_infBits_iff hden, fun hfin _ => capped_nearestBits_nearest (by decide) hden hfin⟩,
    fun num den p hden =>
      ⟨round32_eq_infBits32_iff hden, fun hfin _ => capped_nearestBits_nearest (by decide) hden hfin⟩,
    fun v hv => ?_, fun v hv => ?_, fun v hv => ?_, fun v => rfl⟩
  · rw [f32OfF64, isNaN_of_isFinite hv, isInf_of_isFinite hv]
    rfl
  · simp [f32OfF64, isNaN_of_isInf hv, hv]
  · simp [f32OfF64, hv, nan32]

end Sys2Proof.Machine
end

section
/-! PROOFS. Arithmetic (40_numerics R61 to R65, R67): exact values of packed patterns, then sum, product, quotient, square
root, comparisons, and the operands that are no numbers. -/

namespace Sys2Proof.Machine

/-! ## The classes of patterns -/

theorem infBits_lt_two_pow : infBits < 2 ^ 63 := by decide

theorem absBits_infOf (neg : Bool) : absBits (infOf neg) = infBits := absBits_pack neg infBits_lt_two_pow

/-- An infinity is the infinity of its sign. -/
theorem infOf_signOf {a : F64} (h : isInf a = true) : infOf (signOf a) = a := by
  rw [infOf, ← (isInf_iff a).1 h, pack_signOf_absBits]

/-- A pattern made of a magnitude of at most infinity is no NaN. -/
theorem isNaN_pack (neg : Bool) {p : Nat} (hp : p ≤ infBits) : isNaN (pack neg p) = false :=
  isNaN_eq_false_of_le_infBits (by rwa [absBits_pack neg (Nat.lt_of_le_of_lt hp infBits_lt_two_pow)])

theorem isNaN_infOf (neg : Bool) : isNaN (infOf neg) = false := isNaN_pack neg (Nat.le_refl _)

theorem isNaN_zeroOf (neg : Bool) : isNaN (zeroOf neg) = false := isNaN_pack neg (Nat.zero_le _)

theorem isNaN_pack_round64 (neg : Bool) (num den : Nat) : isNaN (pack neg (round64 num den)) = false :=
  isNaN_pack neg (round64_le num den)

theorem isZero_of_isInf {a : F64} (h : isInf a = true) : isZero a = false :=
  decide_eq_false (by rw [(isInf_iff a).1 h]; decide)

theorem isFinite_or_isInf {a : F64} (h : isNaN a = false) : isFinite a = true ∨ isInf a = true := by
  rw [isNaN, decide_eq_false_iff_not] at h
  rw [isFinite_iff, isInf_iff]
  omega

/-! ## Exact values -/

theorem quanta_eq_zero_iff (a : F64) : quanta a = 0 ↔ isZero a = true := by
  refine ⟨fun h => (isZero_iff a).2 ?_, quanta_of_isZero⟩
  have hinj := (quantaOfBits_strictMono 52).injective (a₁ := absBits a) (a₂ := 0)
  exact hinj (by simpa [quanta, quantaOfBits] using h)

theorem quanta_pack (neg : Bool) {p : Nat} (hp : p ≤ infBits) : quanta (pack neg p) = quantaOfBits 52 p := by
  rw [quanta, absBits_pack neg (Nat.lt_of_le_of_lt hp infBits_lt_two_pow)]

theorem quanta_of_isInf {a : F64} (h : isInf a = true) : quanta a = 2 ^ 2098 := by
  rw [quanta, (isInf_iff a).1 h, quantaOfBits_infBits]

theorem quanta_lt_of_isFinite {a : F64} (h : isFinite a = true) : quanta a < 2 ^ 2098 := by
  rw [← quantaOfBits_infBits]
  exact quantaOfBits_strictMono 52 ((isFinite_iff a).1 h)

theorem quanta_eq_mul_two_pow (a : F64) : ∃ m j, m < 2 ^ 53 ∧ quanta a = m * 2 ^ j :=
  quantaOfBits_eq_mul_two_pow 52 (absBits a)

/-- The rounded magnitude of an integer with the integer's sign, however sign and magnitude are given. -/
theorem pack_round64_of_signed {i : Int} {neg : Bool} {mag : Nat} (hi : i ≠ 0)
    (h : i = if neg then -(mag : Int) else (mag : Int)) :
    pack neg (round64 mag 1) = pack (decide (i < 0)) (round64 i.natAbs 1) := by
  cases neg with
  | false =>
    obtain rfl : i = mag := h
    rw [decide_eq_false (by omega), Int.natAbs_natCast]
  | true =>
    obtain rfl : i = -(mag : Int) := h
    rw [decide_eq_true (by omega), Int.natAbs_neg, Int.natAbs_natCast]

/-! ## Sum and difference -/

theorem fadd_of_isFinite {a b : F64} (ha : isFinite a = true) (hb : isFinite b = true) : fadd a b = addFinite a b := by
  simp [fadd, isNaN_of_isFinite, isInf_of_isFinite, ha, hb]

theorem addFinite_eq_round64 {a b : F64} (h : signedQuanta a + signedQuanta b ≠ 0) :
    addFinite a b = pack (decide (signedQuanta a + signedQuanta b < 0))
      (round64 (signedQuanta a + signedQuanta b).natAbs 1) := by
  have hsum : signedQuanta a + signedQuanta b =
      (if signOf a then -(quanta a : Int) else quanta a) + (if signOf b then -(quanta b : Int) else quanta b) := rfl
  generalize signedQuanta a + signedQuanta b = i at h hsum
  unfold addFinite
  split
  next hs =>
    refine pack_round64_of_signed h ?_
    cases ha : signOf a <;> simp [← hs, ha] at hsum ⊢ <;> omega
  next hs =>
    have hb : signOf b = !signOf a := Bool.eq_not.2 (Ne.symm hs)
    have hdiff : i = if signOf a then (quanta b : Int) - quanta a else (quanta a : Int) - quanta b := by
      cases ha : signOf a <;> simp [hb, ha] at hsum ⊢ <;> omega
    rw [hb]
    split_ifs with heq hlt
    · exact absurd hdiff (by rw [heq]; split <;> omega)
    · refine pack_round64_of_signed h ?_
      cases ha : signOf a <;> simp [ha] at hdiff ⊢ <;> omega
    · refine pack_round64_of_signed h ?_
      cases ha : signOf a <;> simp [ha] at hdiff ⊢ <;> omega

theorem fneg_of_not_nan {a : F64} (h : isNaN a = false) : fneg a = pack (!signOf a) (absBits a) := by
  simp [fneg, h]

/-- A finite value and its negation cancel. -/
theorem fadd_fneg {a : F64} (ha : isFinite a = true) : fadd a (fneg a) = 0 := by
  have hneg := fneg_of_not_nan (isNaN_of_isFinite ha)
  have habs : absBits (fneg a) = absBits a := by rw [hneg, absBits_pack _ (absBits_lt a)]
  have hsign : signOf (fneg a) = !signOf a := by rw [hneg, signOf_pack _ (absBits_lt a)]
  have hfin : isFinite (fneg a) = true := by
    rw [isFinite_iff] at ha ⊢
    rwa [habs]
  rw [fadd_of_isFinite ha hfin, addFinite, hsign, if_neg (by simp), quanta, quanta, habs, if_pos rfl]
  rfl

theorem fadd_opposite_infinities {a b : F64} (ha : isInf a = true) (hb : isInf b = true) (hs : signOf a ≠ signOf b) :
    fadd a b = nan64 := by
  simp [fadd, isNaN_of_isInf, ha, hb, hs]

/-- An infinity stays when what is added is no NaN and not its opposite. -/
theorem fadd_of_isInf {a b : F64} (ha : isInf a = true)
    (hb : isFinite b = true ∨ (isInf b = true ∧ signOf a = signOf b)) :
    fadd a b = a ∧ fadd b a = a := by
  rcases hb with hb | ⟨hb, hs⟩
  · simp [fadd, isNaN_of_isInf, ha, isNaN_of_isFinite hb, isInf_of_isFinite hb, infOf_signOf ha]
  · simp [fadd, isNaN_of_isInf, ha, hb, ← hs, infOf_signOf ha]

/-- Settles O47: the exact sum case by case of the signs. -/
theorem additionRoundsTheExactSum : Obligations.AdditionRoundsTheExactSum := by
  unfold Obligations.AdditionRoundsTheExactSum
  refine ⟨fun a b ha hb hsum => ?_, fun a ha _ => fadd_fneg ha, by decide +kernel, by decide +kernel, by decide +kernel,
    by decide +kernel, fun a b => fadd_opposite_infinities, fun a b => rfl⟩
  rw [fadd_of_isFinite ha hb, addFinite_eq_round64 hsum]

/-! ## Product -/

theorem two_pow_eq_oneQuanta : 2 ^ 1074 = oneQuanta := rfl

theorem fmul_of_isFinite {a b : F64} (ha : isFinite a = true) (hb : isFinite b = true) :
    fmul a b = pack (signOf a != signOf b) (round64 (quanta a * quanta b) oneQuanta) := by
  simp [fmul, isNaN_of_isFinite, isInf_of_isFinite, ha, hb]

theorem fmul_zero_infinity {a b : F64} (ha : isZero a = true) (hb : isInf b = true) :
    fmul a b = nan64 ∧ fmul b a = nan64 := by
  simp [fmul, isNaN_of_isInf hb, isNaN_of_isFinite (isFinite_of_isZero ha), ha, hb]

/-- An infinity times a value that is no NaN and no zero. -/
theorem fmul_of_isInf {a b : F64} (ha : isInf a = true) (hb : isNaN b = false) (hz : isZero b = false) :
    fmul a b = pack (signOf a != signOf b) infBits ∧ fmul b a = pack (signOf a != signOf b) infBits := by
  simp [fmul, isNaN_of_isInf ha, ha, hb, hz, isZero_of_isInf ha, infOf, bne_comm (a := signOf b)]

/-- A product is the canonical NaN, or has the exclusive-or of the signs and a magnitude of at most infinity. -/
theorem fmul_cases (a b : F64) : fmul a b = nan64 ∨ ∃ p, p ≤ infBits ∧ fmul a b = pack (signOf a != signOf b) p := by
  unfold fmul
  dsimp only
  split_ifs
  · exact .inl rfl
  · exact .inl rfl
  · exact .inr ⟨infBits, Nat.le_refl _, rfl⟩
  · exact .inr ⟨_, round64_le _ _, rfl⟩

/-- A value times a power of two, when not below the smallest normal value, is whole quanta of at most 53 significant
bits. -/
theorem exists_significand_of_mul_two_pow {a : F64} {k : Nat}
    (h : quanta a = 0 ∨ 2 ^ 52 * oneQuanta ≤ quanta a * 2 ^ k) :
    ∃ m j, m < 2 ^ 53 ∧ quanta a * 2 ^ k = m * 2 ^ j * oneQuanta := by
  obtain ⟨m, j, hm, ha⟩ := quanta_eq_mul_two_pow a
  rcases h with h | h
  · exact ⟨0, 0, by decide, by simp [h]⟩
  · rw [ha, Nat.mul_assoc, ← Nat.pow_add] at h ⊢
    have hexp : 1074 ≤ j + k := by
      by_contra hlt
      have hpow : 2 ^ (j + k + 1) ≤ 2 ^ 1074 := pow_le_pow_right₀ (by decide) (by omega)
      rw [two_pow_eq_oneQuanta, Nat.pow_succ] at hpow
      have hpos : 0 < 2 ^ (j + k) := Nat.two_pow_pos _
      nlinarith
    refine ⟨m, j + k - 1074, hm, ?_⟩
    rw [oneQuanta, Nat.mul_assoc, ← Nat.pow_add, Nat.sub_add_cancel hexp]

/-- Settles O48: the product by the cases of its definition, and a power of two by the bits it keeps. -/
theorem multiplicationRoundsTheExactProduct : Obligations.MultiplicationRoundsTheExactProduct := by
  unfold Obligations.MultiplicationRoundsTheExactProduct
  refine ⟨fun a b => fmul_of_isFinite, fun a b h => ?sign, fun a b => fmul_zero_infinity,
    fun a b k ha hb hk h hfin => ?exact⟩
  case sign =>
    rcases fmul_cases a b with hnan | ⟨p, hp, heq⟩
    · rw [hnan] at h
      exact absurd h (by decide)
    · rw [heq, signOf_pack _ (Nat.lt_of_le_of_lt hp infBits_lt_two_pow)]
  case exact =>
    rw [hk, two_pow_eq_oneQuanta] at h
    obtain ⟨m, j, hm, hprod⟩ := exists_significand_of_mul_two_pow h
    rw [fmul_of_isFinite ha hb, hk, hprod] at hfin ⊢
    have hlt := quanta_lt_of_isFinite hfin
    rw [quanta_pack _ (round64_le _ _), quantaOfBits_round64 hm j oneQuanta_pos] at hlt ⊢
    rw [min_eq_left (by omega)]
    rfl

/-! ## Quotient -/

theorem fdiv_of_isFinite {a b : F64} (ha : isFinite a = true) (hb : isFinite b = true) (hz : isZero b = false) :
    fdiv a b = pack (signOf a != signOf b) (round64 (quanta a * oneQuanta) (quanta b)) := by
  simp [fdiv, isNaN_of_isFinite, isInf_of_isFinite, ha, hb, hz]

theorem fdiv_by_zero {a b : F64} (ha : isFinite a = true) (hb : isZero b = true) :
    fdiv a b = if isZero a then nan64 else pack (signOf a != signOf b) infBits := by
  have hfin := isFinite_of_isZero hb
  simp [fdiv, isNaN_of_isFinite, isInf_of_isFinite, ha, hb, hfin, infOf]

theorem fdiv_infinities {a b : F64} (ha : isInf a = true) (hb : isInf b = true) : fdiv a b = nan64 := by
  simp [fdiv, isNaN_of_isInf, ha, hb]

theorem fdiv_by_infinity {a b : F64} (ha : isFinite a = true) (hb : isInf b = true) :
    fdiv a b = pack (signOf a != signOf b) 0 := by
  simp [fdiv, isNaN_of_isFinite ha, isInf_of_isFinite ha, isNaN_of_isInf hb, hb, zeroOf]

theorem fdiv_of_isInf {a b : F64} (ha : isInf a = true) (hb : isFinite b = true) :
    fdiv a b = pack (signOf a != signOf b) infBits := by
  simp [fdiv, isNaN_of_isInf ha, ha, isNaN_of_isFinite hb, isInf_of_isFinite hb, infOf]

theorem quanta_pos {a : F64} (h : isZero a = false) : 0 < quanta a :=
  Nat.pos_of_ne_zero fun h0 => Bool.false_ne_true (h.symm.trans ((quanta_eq_zero_iff a).1 h0))

theorem quanta_oneF : quanta oneF = oneQuanta := by decide +kernel

theorem fdiv_self {a : F64} (ha : isFinite a = true) (hz : isZero a = false) : fdiv a a = 0x3FF0000000000000 := by
  have hround : round64 (oneQuanta * quanta a) (quanta a) = absBits oneF := by
    rw [← quanta_oneF]
    exact round64_quanta (by decide) (quanta_pos hz)
  rw [fdiv_of_isFinite ha ha hz, Nat.mul_comm, hround, bne_self_eq_false]
  decide

/-- Settles O49, case by case of the operands. -/
theorem divisionRoundsTheExactQuotient : Obligations.DivisionRoundsTheExactQuotient := by
  unfold Obligations.DivisionRoundsTheExactQuotient
  refine ⟨fun a b => fdiv_of_isFinite, fun a b ha hz hb => ?_, fun a b ha hb => ?_, fun a b => fdiv_infinities,
    fun a b => fdiv_by_infinity, fun a => fdiv_self⟩
  · simp [fdiv_by_zero ha hb, hz]
  · simp [fdiv_by_zero (isFinite_of_isZero ha) hb, ha]

/-! ## Comparisons -/

theorem orderKey_lt_iff (a b : F64) : orderKey a < orderKey b ↔ signedQuanta a < signedQuanta b := by
  have hmono := (quantaOfBits_strictMono 52).lt_iff_lt (a := absBits a) (b := absBits b)
  have hanti := (quantaOfBits_strictMono 52).lt_iff_lt (a := absBits b) (b := absBits a)
  have hapos := (quantaOfBits_strictMono 52).lt_iff_lt (a := 0) (b := absBits a)
  have hbpos := (quantaOfBits_strictMono 52).lt_iff_lt (a := 0) (b := absBits b)
  have hzero : quantaOfBits 52 0 = 0 := by decide
  simp only [orderKey, signedQuanta, quanta]
  cases signOf a <;> cases signOf b <;> simp only [if_true, if_false, Bool.false_eq_true] <;> omega

theorem flt_iff (a b : F64) :
    flt a b = true ↔ isNaN a = false ∧ isNaN b = false ∧ signedQuanta a < signedQuanta b := by
  simp [flt, orderKey_lt_iff, and_assoc]

theorem fle_iff (a b : F64) :
    fle a b = true ↔ isNaN a = false ∧ isNaN b = false ∧ signedQuanta a ≤ signedQuanta b := by
  have h := not_congr (orderKey_lt_iff b a)
  rw [not_lt, not_lt] at h
  simp [fle, h, and_assoc]

theorem feq_iff (a b : F64) :
    feq a b = true ↔ isNaN a = false ∧ isNaN b = false ∧ signedQuanta a = signedQuanta b := by
  have hab := orderKey_lt_iff a b
  have hba := orderKey_lt_iff b a
  have h : orderKey a = orderKey b ↔ signedQuanta a = signedQuanta b := by omega
  simp [feq, h, and_assoc]

theorem signedQuanta_bounds (a : F64) : -(quanta a : Int) ≤ signedQuanta a ∧ signedQuanta a ≤ quanta a := by
  unfold signedQuanta
  split <;> omega

/-- Settles O51: the key the comparisons use is in the order of the values. -/
theorem comparisonsOrderValues : Obligations.ComparisonsOrderValues := by
  unfold Obligations.ComparisonsOrderValues
  refine ⟨fun a b ha hb => ?_, fun a ha => ?_, by decide +kernel, by decide +kernel, fun a b h => ?_, by decide⟩
  · simp [fgt, fge, flt_iff, fle_iff, feq_iff, ha, hb]
  · obtain ⟨hlo, hhi⟩ := signedQuanta_bounds a
    have hlt : (quanta a : Int) < 2 ^ 2098 := by exact_mod_cast quanta_lt_of_isFinite ha
    exact ⟨by omega, by omega⟩
  · rcases h with h | h <;> simp [fgt, fge, flt, fle, feq, h]

/-! ## NaN results -/

theorem fadd_nan64_or_number (a b : F64) : fadd a b = nan64 ∨ isNaN (fadd a b) = false := by
  unfold fadd addFinite
  split_ifs <;> simp [isNaN_infOf, isNaN_zeroOf, isNaN_pack_round64]

theorem fmul_nan64_or_number (a b : F64) : fmul a b = nan64 ∨ isNaN (fmul a b) = false :=
  (fmul_cases a b).imp_right fun ⟨_, hp, h⟩ => h ▸ isNaN_pack _ hp

theorem fdiv_nan64_or_number (a b : F64) : fdiv a b = nan64 ∨ isNaN (fdiv a b) = false := by
  unfold fdiv
  dsimp only
  split_ifs <;> simp [isNaN_infOf, isNaN_zeroOf, isNaN_pack_round64]

theorem fneg_nan64_or_number (a : F64) : fneg a = nan64 ∨ isNaN (fneg a) = false := by
  unfold fneg
  split
  · exact .inl rfl
  next h =>
    rw [isNaN_iff] at h
    exact .inr (isNaN_pack _ (Nat.le_of_not_lt h))

theorem fsqrt_nan64_or_number (a : F64) : fsqrt a = nan64 ∨ isNaN (fsqrt a) = false := by
  unfold fsqrt sqrtMagnitude
  split_ifs <;> simp_all [isNaN_pack_round64]

theorem f64OfF32_nan64_or_number (p : F32) : f64OfF32 p = nan64 ∨ isNaN (f64OfF32 p) = false := by
  unfold f64OfF32
  dsimp only
  split_ifs
  · exact .inl rfl
  · exact .inr (isNaN_infOf _)
  · exact .inr (isNaN_pack_round64 _ _ _)

/-- Settles O52: every operation ends in the canonical NaN or in no NaN. -/
theorem nanResultsAreCanonicalAndInfinitiesStay : Obligations.NanResultsAreCanonicalAndInfinitiesStay := by
  unfold Obligations.NanResultsAreCanonicalAndInfinitiesStay
  have hcanonical {v : F64} (h : v = nan64 ∨ isNaN v = false) (hv : isNaN v = true) : v = nan64 :=
    h.resolve_right (by simp [hv])
  refine ⟨fun a b h => ?operands, fun a h => ?operand,
    fun a b => ⟨hcanonical (fadd_nan64_or_number a b), hcanonical (fadd_nan64_or_number a (fneg b)),
      hcanonical (fmul_nan64_or_number a b), hcanonical (fdiv_nan64_or_number a b),
      hcanonical (fsqrt_nan64_or_number a), hcanonical (fneg_nan64_or_number a)⟩,
    fun p => hcanonical (f64OfF32_nan64_or_number p), fun a b ha hb => fadd_of_isInf ha (.inl hb),
    fun a b ha hb hs => (fadd_of_isInf ha (.inr ⟨hb, hs⟩)).1, fun a b => fmul_of_isInf, fun a b => fdiv_of_isInf⟩
  case operands =>
    have hnan : isNaN nan64 = true := by decide
    rcases h with h | h <;> simp [fadd, fsub, fneg, fmul, fdiv, h, hnan]
  case operand =>
    simp [fneg, fsqrt, f32OfF64, nan32, h]

end Sys2Proof.Machine
end

section
/-! PROOFS. The square root (40_numerics R64): the integer root that is rounded in its place lies on the same side of every
midpoint between neighbouring patterns as the exact root. -/

namespace Sys2Proof.Machine

/-! ## Midpoints against the integer root -/

/-- A midpoint is a multiple of a power of two, or is small against it. -/
theorem dvd_twiceMidpoint_or_lt (frac p h : Nat) :
    2 ^ (h + 1) ∣ twiceMidpoint frac p ∨ twiceMidpoint frac p < 2 ^ (frac + 2) * 2 ^ h := by
  obtain ⟨m, hm, hq⟩ := quantaOfBits_eq_mul_gapAbove frac p
  have hmid : twiceMidpoint frac p = (2 * m + 1) * gapAbove frac p := by
    rw [twiceMidpoint, quantaOfBits_succ, hq]
    ring
  rw [hmid, gapAbove]
  rcases Nat.lt_or_ge h (p / 2 ^ frac - 1) with hlt | hge
  · exact .inl (Dvd.dvd.mul_left (pow_dvd_pow 2 hlt) _)
  · right
    calc (2 * m + 1) * 2 ^ (p / 2 ^ frac - 1)
        ≤ (2 * m + 1) * 2 ^ h := Nat.mul_le_mul_left _ (Nat.pow_le_pow_right (by decide) hge)
      _ < 2 ^ (frac + 2) * 2 ^ h := by
        refine Nat.mul_lt_mul_of_pos_right ?_ (Nat.two_pow_pos h)
        rw [pow_succ] at hm ⊢
        omega

/-- Twice the integer root, one more when the root is not exact. -/
def twiceRoot (n root : Nat) : Nat := 2 * root + if root * root = n then 0 else 1

section Root

variable {n root h : Nat} (hlo : root * root ≤ n) (hhi : n < (root + 1) * (root + 1)) (hroot : 2 ^ 55 ≤ root)

include hlo hroot in
theorem twiceMidpoint_sq_le {p : Nat} (hp : twiceMidpoint 52 p ≤ twiceRoot n root * 2 ^ h) :
    twiceMidpoint 52 p ^ 2 ≤ 4 * (n * (2 ^ h * 2 ^ h)) := by
  have hle : twiceMidpoint 52 p ≤ 2 * root * 2 ^ h := by
    rcases dvd_twiceMidpoint_or_lt 52 p h with ⟨c, hc⟩ | hsmall
    · have heq : twiceMidpoint 52 p = 2 * c * 2 ^ h := by
        rw [hc, pow_succ]
        ring
      rw [heq] at hp ⊢
      have hc := Nat.le_of_mul_le_mul_right hp (Nat.two_pow_pos h)
      refine Nat.mul_le_mul_right _ ?_
      unfold twiceRoot at hc
      split at hc <;> omega
    · exact hsmall.le.trans (Nat.mul_le_mul_right _ (by omega))
  calc twiceMidpoint 52 p ^ 2 ≤ (2 * root * 2 ^ h) ^ 2 := Nat.pow_le_pow_left hle 2
    _ = 4 * (root * root * (2 ^ h * 2 ^ h)) := by ring
    _ ≤ 4 * (n * (2 ^ h * 2 ^ h)) := Nat.mul_le_mul_left _ (Nat.mul_le_mul_right _ hlo)

include hhi hroot in
theorem le_twiceMidpoint_sq {p : Nat} (hp : twiceRoot n root * 2 ^ h ≤ twiceMidpoint 52 p) :
    4 * (n * (2 ^ h * 2 ^ h)) ≤ twiceMidpoint 52 p ^ 2 := by
  by_cases hexact : root * root = n
  · rw [twiceRoot, if_pos hexact, Nat.add_zero] at hp
    calc 4 * (n * (2 ^ h * 2 ^ h)) = (2 * root * 2 ^ h) ^ 2 := by rw [← hexact]; ring
      _ ≤ twiceMidpoint 52 p ^ 2 := Nat.pow_le_pow_left hp 2
  · rw [twiceRoot, if_neg hexact] at hp
    have hle : 2 * (root + 1) * 2 ^ h ≤ twiceMidpoint 52 p := by
      rcases dvd_twiceMidpoint_or_lt 52 p h with ⟨c, hc⟩ | hsmall
      · have heq : twiceMidpoint 52 p = 2 * c * 2 ^ h := by
          rw [hc, pow_succ]
          ring
        rw [heq] at hp ⊢
        have hc := Nat.le_of_mul_le_mul_right hp (Nat.two_pow_pos h)
        exact Nat.mul_le_mul_right _ (by omega)
      · have hlarge : 2 ^ (52 + 2) * 2 ^ h ≤ (2 * root + 1) * 2 ^ h := Nat.mul_le_mul_right _ (by omega)
        omega
    calc 4 * (n * (2 ^ h * 2 ^ h)) ≤ 4 * ((root + 1) * (root + 1) * (2 ^ h * 2 ^ h)) :=
          Nat.mul_le_mul_left _ (Nat.mul_le_mul_right _ hhi.le)
      _ = (2 * (root + 1) * 2 ^ h) ^ 2 := by ring
      _ ≤ twiceMidpoint 52 p ^ 2 := Nat.pow_le_pow_left hle 2

end Root

/-! ## The rounded root -/

/-- The square the model takes the root of, and the root it finds. -/
theorem sqrtMagnitude_eq {p : Nat} (hp : 0 < p) :
    ∃ n root h, quantaOfBits 52 p * oneQuanta = n * (2 ^ h * 2 ^ h) ∧ root * root ≤ n ∧
      n < (root + 1) * (root + 1) ∧ 2 ^ 55 ≤ root ∧ sqrtMagnitude p = round64 (twiceRoot n root * 2 ^ h) 2 := by
  obtain ⟨m, e, hm, hpos, hq, hsqrt⟩ : ∃ m e, m < 2 ^ 53 ∧ 0 < m ∧ quantaOfBits 52 p = m * 2 ^ e ∧
      sqrtMagnitude p = round64 (twiceRoot (m * 2 ^ (110 + (e + 1074) % 2))
        (isqrtFrom (m * 2 ^ (110 + (e + 1074) % 2)) 84 0) *
          2 ^ ((e + 1074 - (110 + (e + 1074) % 2)) / 2)) 2 := by
    have hf : p % 2 ^ 52 < 2 ^ 52 := Nat.mod_lt _ (Nat.two_pow_pos 52)
    by_cases he : p / 2 ^ 52 = 0
    · refine ⟨p % 2 ^ 52, 0, by omega, by omega, ?_, ?_⟩
      · simp only [quantaOfBits, if_pos he, Nat.pow_zero, Nat.mul_one]
      · simp only [sqrtMagnitude, if_pos he, twiceRoot]
    · refine ⟨2 ^ 52 + p % 2 ^ 52, p / 2 ^ 52 - 1, by omega, by omega, ?_, ?_⟩
      · simp only [quantaOfBits, if_neg he]
      · simp only [sqrtMagnitude, if_neg he, twiceRoot]
  generalize hr : 110 + (e + 1074) % 2 = r at hsqrt
  have hbig : 2 ^ 110 ≤ m * 2 ^ r := by
    calc 2 ^ 110 ≤ 2 ^ r := Nat.pow_le_pow_right (by decide) (by omega)
      _ ≤ m * 2 ^ r := Nat.le_mul_of_pos_left _ hpos
  have hbound : m * 2 ^ r < (0 + 2 ^ 84) * (0 + 2 ^ 84) := by
    calc m * 2 ^ r ≤ m * 2 ^ 111 := Nat.mul_le_mul_left _ (Nat.pow_le_pow_right (by decide) (by omega))
      _ < (0 + 2 ^ 84) * (0 + 2 ^ 84) := by omega
  obtain ⟨hlo, hhi⟩ := isqrtFrom_spec (m * 2 ^ r) 84 0 (Nat.zero_le _) hbound
  refine ⟨_, _, _, ?_, hlo, hhi, ?_, hsqrt⟩
  · rw [hq, oneQuanta, Nat.mul_assoc, Nat.mul_assoc, ← Nat.pow_add, ← Nat.pow_add, ← Nat.pow_add]
    congr 2
    omega
  · by_contra hlt
    have := Nat.mul_le_mul (show isqrtFrom (m * 2 ^ r) 84 0 + 1 ≤ 2 ^ 55 by omega)
      (show isqrtFrom (m * 2 ^ r) 84 0 + 1 ≤ 2 ^ 55 by omega)
    omega

/-- The pattern of the root is a finite one, not the largest, and the square lies between those of its midpoints. -/
theorem sqrtMagnitude_nearest {p : Nat} (hp : 0 < p) (hfin : p < infBits) :
    0 < sqrtMagnitude p ∧ sqrtMagnitude p + 1 < infBits ∧
      twiceMidpoint 52 (sqrtMagnitude p - 1) ^ 2 ≤ 4 * (quantaOfBits 52 p * oneQuanta) ∧
      4 * (quantaOfBits 52 p * oneQuanta) ≤ twiceMidpoint 52 (sqrtMagnitude p) ^ 2 := by
  obtain ⟨n, root, h, hq, hlo, hhi, hroot, hsqrt⟩ := sqrtMagnitude_eq hp
  have hrule := lt_nearestBits_iff (frac := 52) (by decide) (num := twiceRoot n root * 2 ^ h) (den := 2) (by decide)
  rw [hsqrt, round64_eq, hq]
  generalize nearestBits 52 (twiceRoot n root * 2 ^ h) 2 = r at hrule ⊢
  have hbelow {s : Nat} (hs : s < r) : twiceMidpoint 52 s ^ 2 ≤ 4 * (n * (2 ^ h * 2 ^ h)) :=
    twiceMidpoint_sq_le hlo hroot (by have := (hrule s).1 hs; omega)
  have habove {s : Nat} (hs : ¬s < r) : 4 * (n * (2 ^ h * 2 ^ h)) ≤ twiceMidpoint 52 s ^ 2 :=
    le_twiceMidpoint_sq hhi hroot (by have := mt (hrule s).2 hs; omega)
  have hpos : 0 < r := by
    by_contra hzero
    have hone : twiceMidpoint 52 0 ^ 2 = 1 := by decide
    have hsquare : 0 < n * (2 ^ h * 2 ^ h) :=
      hq ▸ Nat.mul_pos (Nat.zero_lt_of_lt (quantaOfBits_strictMono 52 hp)) oneQuanta_pos
    have hle := habove hzero
    omega
  have hlt : r + 1 < infBits := by
    by_contra hge
    have hlarge : 4 * (quantaOfBits 52 infBits * oneQuanta) ≤ twiceMidpoint 52 (infBits - 2) ^ 2 := by decide +kernel
    have htwo : 2 ≤ infBits := by decide
    have hsq := hbelow (show infBits - 2 < r by omega)
    have hstrict := Nat.mul_lt_mul_of_pos_right (quantaOfBits_strictMono 52 hfin) oneQuanta_pos
    omega
  rw [min_eq_left (by omega)]
  exact ⟨hpos, hlt, hbelow (by omega), habove (Nat.lt_irrefl r)⟩

theorem fsqrt_of_positive {a : F64} (ha : isFinite a = true) (hz : isZero a = false) (hs : signOf a = false) :
    fsqrt a = pack false (sqrtMagnitude (absBits a)) := by
  simp [fsqrt, isNaN_of_isFinite ha, isInf_of_isFinite ha, hz, hs]

theorem fsqrt_of_negative {a : F64} (hs : signOf a = true) (hz : isZero a = false) : fsqrt a = nan64 := by
  simp [fsqrt, hs, hz]

/-- Settles O50: the exact root of a positive finite value is between the midpoints about the result. -/
theorem squareRootIsNearest : Obligations.SquareRootIsNearest := by
  unfold Obligations.SquareRootIsNearest
  refine ⟨fun a ha hz hs => ?_, by decide, by decide, by decide, fun a => fsqrt_of_negative⟩
  have hpos : 0 < absBits a := Nat.pos_of_ne_zero (of_decide_eq_false hz)
  obtain ⟨hp, hlt, hlow, hhigh⟩ := sqrtMagnitude_nearest hpos ((isFinite_iff a).1 ha)
  have hroot := fsqrt_of_positive ha hz hs
  have habs : absBits (fsqrt a) = sqrtMagnitude (absBits a) := by
    rw [hroot, absBits_pack false (by have := infBits_lt_two_pow; omega)]
  rw [twiceMidpoint, Nat.sub_add_cancel hp] at hlow
  rw [habs]
  exact ⟨hroot, hp, hlt, hlow, hhigh⟩

end Sys2Proof.Machine
end

section
/-! PROOFS. Decoding of samples (40_numerics R65, R72): integers and their quotients by the scale of a format are values
of binary64, and so is every value of binary32. -/

namespace Sys2Proof.Machine

/-! ## Integers -/

theorem isFinite_pack_iff (neg : Bool) {p : Nat} (hp : p ≤ infBits) :
    isFinite (pack neg p) = true ↔ quantaOfBits 52 p < 2 ^ 2098 := by
  rw [isFinite_iff, absBits_pack neg (Nat.lt_of_le_of_lt hp infBits_lt_two_pow), ← quantaOfBits_infBits]
  exact (quantaOfBits_strictMono 52).lt_iff_lt.symm

/-- The integers that a sample or a sample rate can be lie far below the overflow bound. -/
theorem small_mul_two_pow_lt {n j : Nat} (hn : n < 2 ^ 53) (hj : j ≤ 1074) : n * 2 ^ j < 2 ^ 2098 := by
  calc n * 2 ^ j < 2 ^ 53 * 2 ^ j := Nat.mul_lt_mul_of_pos_right hn (Nat.two_pow_pos j)
    _ = 2 ^ (53 + j) := (pow_add 2 53 j).symm
    _ ≤ 2 ^ 2098 := pow_le_pow_right₀ (by decide) (by omega)

/-- A number of at most 53 significant bits below the overflow bound is not changed by rounding. -/
theorem pack_round64_exact (neg : Bool) {m j d : Nat} (hm : m < 2 ^ 53) (hj : j ≤ 1074) (hd : 0 < d) :
    isFinite (pack neg (round64 (m * 2 ^ j * d) d)) = true ∧
      quanta (pack neg (round64 (m * 2 ^ j * d) d)) = m * 2 ^ j := by
  have hlt := small_mul_two_pow_lt hm hj
  have hq := quantaOfBits_round64 hm j hd
  rw [min_eq_left hlt.le] at hq
  rw [isFinite_pack_iff neg (round64_le _ _), quanta_pack neg (round64_le _ _), hq]
  exact ⟨hlt, rfl⟩

theorem f64OfInt_exact {i : Int} (hi : i.natAbs < 2 ^ 53) :
    isFinite (f64OfInt i) = true ∧ quanta (f64OfInt i) = i.natAbs * oneQuanta ∧
      signOf (f64OfInt i) = decide (i < 0) := by
  have h := pack_round64_exact (decide (i < 0)) hi (Nat.le_refl 1074) Nat.one_pos
  rw [Nat.mul_one, two_pow_eq_oneQuanta] at h
  exact ⟨h.1, h.2, signOf_pack _ (round64_lt_two_pow _ _)⟩

theorem f64OfNat_exact {n : Nat} (hn : n < 2 ^ 53) :
    isFinite (f64OfNat n) = true ∧ quanta (f64OfNat n) = n * oneQuanta ∧ signOf (f64OfNat n) = false := by
  have h := f64OfInt_exact (i := n) (by simpa using hn)
  have heq : f64OfInt n = f64OfNat n := by
    rw [f64OfInt, f64OfNat, Int.natAbs_natCast, decide_eq_false (by omega)]
  rw [heq, Int.natAbs_natCast, decide_eq_false (by omega)] at h
  exact h

theorem signedQuanta_of_int {a : F64} {i : Int} {d : Nat} (hq : quanta a = i.natAbs * d)
    (hs : signOf a = decide (i < 0)) :
    signedQuanta a = i * d := by
  rw [signedQuanta, hq, hs, Nat.cast_mul]
  by_cases hi : i < 0
  · rw [decide_eq_true hi, if_pos rfl, Int.ofNat_natAbs_of_nonpos hi.le]
    ring
  · rw [decide_eq_false hi, if_neg Bool.false_ne_true, Int.natAbs_of_nonneg (by omega)]

theorem signedQuanta_f64OfInt {i : Int} (hi : i.natAbs < 2 ^ 53) : signedQuanta (f64OfInt i) = i * oneQuanta :=
  have ⟨_, hq, hs⟩ := f64OfInt_exact hi
  signedQuanta_of_int hq hs

theorem signedQuanta_f64OfNat {n : Nat} (hn : n < 2 ^ 53) : signedQuanta (f64OfNat n) = n * oneQuanta := by
  obtain ⟨-, hq, hs⟩ := f64OfNat_exact hn
  rw [signedQuanta, hq, hs, if_neg Bool.false_ne_true, Nat.cast_mul]

/-! ## Integer samples -/

/-- The integer that a raw sample of an integer format stands for (40_numerics R72). -/
def sampleInt (raw : Nat) : Format → Int
  | .unsigned8 => (raw : Int) - 128
  | fmt => signExtend (8 * fmt.bytes) raw

theorem sampleInt_eq_signExtend (raw : Nat) {fmt : Format} (h : fmt ≠ .unsigned8) :
    sampleInt raw fmt = signExtend (8 * fmt.bytes) raw := by
  cases fmt
  case unsigned8 => exact absurd rfl h
  all_goals rfl

theorem decodeSample_eq_fdiv (raw : Nat) {fmt : Format} (hfmt : fmt ≠ .float32) :
    decodeSample raw fmt = fdiv (f64OfInt (sampleInt raw fmt)) (scaleOf (8 * fmt.bytes)) := by
  cases fmt
  case float32 => exact absurd rfl hfmt
  all_goals rfl

theorem scaleOf_exact {n : Nat} (hn : n ≤ 32) :
    isFinite (scaleOf n) = true ∧ quanta (scaleOf n) = 2 ^ (n - 1) * oneQuanta ∧ signOf (scaleOf n) = false := by
  refine f64OfNat_exact (lt_of_le_of_lt (Nat.pow_le_pow_right (by decide) (show n - 1 ≤ 31 by omega)) (by decide))

theorem scaleOf_not_zero {n : Nat} (hn : n ≤ 32) : isZero (scaleOf n) = false := by
  rw [Bool.eq_false_iff, ne_eq, ← quanta_eq_zero_iff, (scaleOf_exact hn).2.1]
  exact (Nat.mul_pos (Nat.two_pow_pos _) oneQuanta_pos).ne'

/-- An integer over the scale of a format is a value of binary64. -/
theorem fdiv_scaleOf_exact {n : Nat} (hn : n ≤ 32) {i : Int} (hi : i.natAbs < 2 ^ 53) :
    isFinite (fdiv (f64OfInt i) (scaleOf n)) = true ∧
      signedQuanta (fdiv (f64OfInt i) (scaleOf n)) * 2 ^ (n - 1) = i * oneQuanta := by
  obtain ⟨hifin, hiq, his⟩ := f64OfInt_exact hi
  obtain ⟨hsfin, hsq, hss⟩ := scaleOf_exact hn
  have hsz := scaleOf_not_zero hn
  have hexp := (pow_add 2 (1074 - (n - 1)) (n - 1)).symm
  rw [Nat.sub_add_cancel (by omega), two_pow_eq_oneQuanta] at hexp
  have hratio : quanta (f64OfInt i) * oneQuanta = i.natAbs * 2 ^ (1074 - (n - 1)) * quanta (scaleOf n) := by
    rw [hiq, hsq]
    nth_rewrite 1 [← hexp]
    ring
  obtain ⟨hfin, hq⟩ := pack_round64_exact (decide (i < 0)) hi (show 1074 - (n - 1) ≤ 1074 by omega) (quanta_pos hsz)
  rw [fdiv_of_isFinite hifin hsfin hsz, his, hss, Bool.bne_false, hratio]
  refine ⟨hfin, ?_⟩
  rw [signedQuanta_of_int hq (signOf_pack _ (round64_lt_two_pow _ _)), mul_assoc, ← hexp]
  push_cast
  rfl

theorem two_pow_cast (n : Nat) : (2 : Int) ^ n = (2 ^ n : Nat) := (Nat.cast_pow 2 n).symm

theorem two_pow_eq_double {n : Nat} (hn : 0 < n) : 2 ^ n = 2 * 2 ^ (n - 1) := by
  rw [← pow_succ', Nat.sub_add_cancel hn]

theorem signExtend_bounds {n raw : Nat} (hn : 0 < n) (hraw : raw < 2 ^ n) :
    -(2 : Int) ^ (n - 1) ≤ signExtend n raw ∧ signExtend n raw ≤ 2 ^ (n - 1) - 1 := by
  have hdouble := two_pow_eq_double hn
  rw [signExtend, two_pow_cast, two_pow_cast]
  split <;> omega

theorem two_pow_bits (fmt : Format) : 256 ^ fmt.bytes = 2 ^ (8 * fmt.bytes) :=
  (pow_mul 2 8 fmt.bytes).symm

theorem sampleInt_bounds {raw : Nat} {fmt : Format} (hraw : raw < 256 ^ fmt.bytes) :
    -(2 : Int) ^ (8 * fmt.bytes - 1) ≤ sampleInt raw fmt ∧ sampleInt raw fmt ≤ 2 ^ (8 * fmt.bytes - 1) - 1 := by
  rw [two_pow_bits] at hraw
  cases fmt
  case unsigned8 =>
    have hraw : raw < 256 := hraw
    show -(128 : Int) ≤ (raw : Int) - 128 ∧ (raw : Int) - 128 ≤ 128 - 1
    omega
  all_goals exact signExtend_bounds (by decide) hraw

theorem decodeSample_exact {raw : Nat} {fmt : Format} (hfmt : fmt ≠ .float32) (hraw : raw < 256 ^ fmt.bytes) :
    isFinite (decodeSample raw fmt) = true ∧
      signedQuanta (decodeSample raw fmt) * 2 ^ (8 * fmt.bytes - 1) = sampleInt raw fmt * oneQuanta := by
  rw [decodeSample_eq_fdiv raw hfmt]
  obtain ⟨hlo, hhi⟩ := sampleInt_bounds hraw
  have hbytes : fmt.bytes ≤ 4 := by cases fmt <;> decide
  have hpow : (2 : Int) ^ (8 * fmt.bytes - 1) ≤ 2 ^ 31 := pow_le_pow_right₀ (by decide) (by omega)
  exact fdiv_scaleOf_exact (by omega) (by omega)

/-! ## Float32 samples -/

theorem quantaOfBits_infBits32 : quantaOfBits 23 infBits32 = 2 ^ 277 := by decide +kernel

/-- Every finite binary32 is far below the overflow bound of binary64. -/
theorem widened_lt_two_pow {r : Nat} (hr : r < infBits32) : quantaOfBits 23 r * 2 ^ 925 < 2 ^ 2098 := by
  calc quantaOfBits 23 r * 2 ^ 925
      < 2 ^ 277 * 2 ^ 925 := by
        rw [← quantaOfBits_infBits32]
        exact Nat.mul_lt_mul_of_pos_right (quantaOfBits_strictMono 23 hr) (pow_pos Nat.two_pos 925)
    _ = 2 ^ (277 + 925) := (pow_add 2 277 925).symm
    _ ≤ 2 ^ 2098 := pow_le_pow_right₀ (by decide) (by decide)

/-- Widening keeps sign and value of every finite binary32. -/
theorem f64OfF32_of_lt {p : F32} (hp : absBits32 p < infBits32) :
    isFinite (f64OfF32 p) = true ∧ signOf (f64OfF32 p) = decide (2 ^ 31 ≤ p.toNat) ∧
      quanta (f64OfF32 p) = quantaOfBits 23 (absBits32 p) * 2 ^ 925 := by
  obtain ⟨m, j, hm, hq⟩ := quantaOfBits_eq_mul_two_pow 23 (absBits32 p)
  have hlt := widened_lt_two_pow hp
  have heq : f64OfF32 p =
      pack (decide (2 ^ 31 ≤ p.toNat)) (round64 (quantaOfBits 23 (absBits32 p) * 2 ^ 925) 1) := by
    unfold f64OfF32
    dsimp only
    rw [if_neg (by omega), if_neg (by omega)]
  have hround := quantaOfBits_round64 (show m < 2 ^ 53 by omega) (j + 925) Nat.one_pos
  rw [pow_add, ← Nat.mul_assoc, ← hq, Nat.mul_one, min_eq_left hlt.le] at hround
  have hle := round64_le (quantaOfBits 23 (absBits32 p) * 2 ^ 925) 1
  rw [heq, isFinite_pack_iff _ hle, quanta_pack _ hle, signOf_pack _ (round64_lt_two_pow _ _), hround]
  exact ⟨hlt, rfl, rfl⟩

theorem f64OfF32_of_eq {p : F32} (hp : absBits32 p = infBits32) : f64OfF32 p = infOf (decide (2 ^ 31 ≤ p.toNat)) := by
  unfold f64OfF32
  dsimp only
  rw [if_neg (by omega), if_pos hp]

theorem f64OfF32_of_gt {p : F32} (hp : infBits32 < absBits32 p) : f64OfF32 p = nan64 := by
  unfold f64OfF32
  dsimp only
  rw [if_pos hp]

/-! ## The statement on decoding -/

theorem oneQuanta_cast : (oneQuanta : Int) = 2 ^ 1074 := Nat.cast_pow 2 1074

/-- Settles O53: each format by the exactness of its conversion. -/
theorem decodingIsExact : Obligations.DecodingIsExact := by
  unfold Obligations.DecodingIsExact
  rw [← oneQuanta_cast]
  refine ⟨fun raw hraw => ?_, fun fmt raw hsigned hfloat hraw => ?_, fun raw hraw => ?_,
    by decide +kernel, by decide +kernel, by decide +kernel, by decide +kernel, fun n hn => ?_, fun i hlo hhi => ?_⟩
  · exact decodeSample_exact (fmt := .unsigned8) (by decide) hraw
  · rw [← sampleInt_eq_signExtend raw hsigned]
    exact decodeSample_exact hfloat hraw
  · have htoNat : (BitVec.ofNat 32 raw).toNat = raw := by simpa using hraw
    have habs : absBits32 (BitVec.ofNat 32 raw) = raw % 2 ^ 31 := by rw [absBits32, htoNat]
    rw [← habs]
    refine ⟨fun h => ?_, fun h => ?_, f64OfF32_of_gt⟩
    · have hexact := f64OfF32_of_lt h
      rwa [htoNat] at hexact
    · have hinf := f64OfF32_of_eq h
      rwa [htoNat] at hinf
  · have hsmall : n < 2 ^ 53 := by omega
    exact ⟨(f64OfNat_exact hsmall).1, signedQuanta_f64OfNat hsmall⟩
  · have hsmall : i.natAbs < 2 ^ 53 := by omega
    exact ⟨(f64OfInt_exact hsmall).1, signedQuanta_f64OfInt hsmall⟩

end Sys2Proof.Machine
end

section
/-! PROOFS. Encoding of samples (40_numerics R73 to R75): the quantiser clamps the nearest integer of the scaled value, and
what round trips, saturation, signs, order and errors follow from it. -/

namespace Sys2Proof.Machine

/-! ## The nearest integer -/

/-- `q` is the integer nearest to `x / d`, the even one on a tie. -/
def RoundsTo (q x d : Int) : Prop := 2 * |q * d - x| ≤ d ∧ (2 * |q * d - x| = d → q % 2 = 0)

theorem roundsTo_iff (q x d : Int) :
    RoundsTo q x d ↔ (-d ≤ 2 * (q * d - x) ∧ 2 * (q * d - x) ≤ d) ∧
      (2 * (q * d - x) = -d ∨ 2 * (q * d - x) = d → q % 2 = 0) := by
  rw [RoundsTo]
  rcases abs_cases (q * d - x) with ⟨h, _⟩ | ⟨h, _⟩ <;> rw [h] <;> constructor <;> rintro ⟨h1, h2⟩ <;>
    refine ⟨by omega, fun h3 => h2 (by omega)⟩

/-- Rounding to an integer keeps the order. -/
theorem RoundsTo.mono {q r x y d : Int} (hd : 0 < d) (hq : RoundsTo q x d) (hr : RoundsTo r y d) (hxy : x ≤ y) :
    q ≤ r := by
  rw [roundsTo_iff] at hq hr
  obtain ⟨⟨-, hq⟩, hqtie⟩ := hq
  obtain ⟨⟨hr, -⟩, hrtie⟩ := hr
  by_contra hlt
  have hstep : d ≤ q * d - r * d := by nlinarith
  have hqeven := hqtie (by omega)
  have hreven := hrtie (by omega)
  have htwo : 2 * d ≤ q * d - r * d := by nlinarith [show r + 2 ≤ q by omega]
  omega

theorem RoundsTo.unique {q r x d : Int} (hd : 0 < d) (hq : RoundsTo q x d) (hr : RoundsTo r x d) : q = r :=
  le_antisymm (hq.mono hd hr le_rfl) (hr.mono hd hq le_rfl)

theorem RoundsTo.neg {q x d : Int} (h : RoundsTo q x d) : RoundsTo (-q) (-x) d := by
  rw [roundsTo_iff] at h ⊢
  rw [neg_mul]
  omega

/-- An integer number of `d` is its own nearest integer. -/
theorem roundsTo_mul (i : Int) {d : Int} (hd : 0 < d) : RoundsTo i (i * d) d := by
  rw [roundsTo_iff]
  omega

theorem roundsTo_nearestEven (num : Nat) {den : Nat} (hden : 0 < den) : RoundsTo (nearestEven num den) num den := by
  have hmod := Nat.mod_lt num hden
  have hsum : (num : Int) = (num / den : Nat) * den + (num % den : Nat) := by
    exact_mod_cast (Nat.div_add_mod' num den).symm
  rw [roundsTo_iff]
  simp only [nearestEven]
  generalize num / den = n at hsum ⊢
  generalize num % den = r at hmod hsum ⊢
  rw [hsum]
  split_ifs <;> push_cast [add_mul, one_mul] <;> omega

theorem roundsTo_rne (v : F64) : RoundsTo (rne v) (signedQuanta v) oneQuanta := by
  have h := roundsTo_nearestEven (quanta v) oneQuanta_pos
  simp only [rne, signedQuanta]
  split
  · exact h.neg
  · exact h

theorem exists_roundsTo (x : Int) {d : Nat} (hd : 0 < d) : ∃ q, RoundsTo q x d := by
  obtain ⟨n, rfl | rfl⟩ := Int.eq_nat_or_neg x
  · exact ⟨_, roundsTo_nearestEven n hd⟩
  · exact ⟨_, (roundsTo_nearestEven n hd).neg⟩

/-! ## The quantiser -/

/-- Scaling by the scale of a format is exact, or overflows to infinity. -/
theorem fmul_scaleOf {n : Nat} (hn : n ≤ 32) {v : F64} (hv : isNaN v = false) :
    isNaN (fmul v (scaleOf n)) = false ∧ signOf (fmul v (scaleOf n)) = signOf v ∧
      quanta (fmul v (scaleOf n)) = min (quanta v * 2 ^ (n - 1)) (2 ^ 2098) := by
  obtain ⟨hsfin, hsq, hss⟩ := scaleOf_exact hn
  rcases isFinite_or_isInf hv with hfin | hinf
  · obtain ⟨m, j, hm, hq⟩ := quanta_eq_mul_two_pow v
    have hprod : quanta v * (2 ^ (n - 1) * oneQuanta) = m * 2 ^ (j + (n - 1)) * oneQuanta := by
      rw [hq, pow_add]
      ring
    rw [fmul_of_isFinite hfin hsfin, hss, Bool.bne_false, hsq, hprod, isNaN_pack_round64,
      signOf_pack _ (round64_lt_two_pow _ _), quanta_pack _ (round64_le _ _), quantaOfBits_round64 hm _ oneQuanta_pos, hq, pow_add, Nat.mul_assoc]
    exact ⟨rfl, rfl, rfl⟩
  · rw [(fmul_of_isInf hinf (isNaN_of_isFinite hsfin) (scaleOf_not_zero hn)).1, hss, Bool.bne_false,
      isNaN_pack _ (Nat.le_refl _), signOf_pack _ infBits_lt_two_pow, quanta_pack _ (Nat.le_refl _),
      quantaOfBits_infBits, quanta_of_isInf hinf,
      min_eq_right (Nat.le_mul_of_pos_right _ (Nat.two_pow_pos _))]
    exact ⟨rfl, rfl, rfl⟩

theorem signedQuanta_fmul_scaleOf {n : Nat} (hn : n ≤ 32) {v : F64} (hv : isNaN v = false) :
    signedQuanta (fmul v (scaleOf n)) =
      max (-((2 ^ 2098 : Nat) : Int)) (min (signedQuanta v * 2 ^ (n - 1)) (2 ^ 2098 : Nat)) := by
  obtain ⟨-, hs, hq⟩ := fmul_scaleOf hn hv
  have hscaled : signedQuanta v * 2 ^ (n - 1) =
      if signOf v then -((quanta v * 2 ^ (n - 1) : Nat) : Int) else (quanta v * 2 ^ (n - 1) : Nat) := by
    rw [signedQuanta]
    split <;> push_cast <;> ring
  rw [hscaled, signedQuanta, hs, hq]
  generalize quanta v * 2 ^ (n - 1) = x
  generalize 2 ^ 2098 = b
  split <;> omega

theorem one_le_scale (n : Nat) : (1 : Int) ≤ 2 ^ (n - 1) := one_le_pow₀ (by decide)

theorem scale_le {n : Nat} (hn : n ≤ 32) : (2 : Int) ^ (n - 1) ≤ 2 ^ 31 := pow_le_pow_right₀ (by decide) (by omega)

theorem oneQuanta_cast_pos : (0 : Int) < oneQuanta := by exact_mod_cast oneQuanta_pos

/-- The quantiser's branches, told by the exact value of the scaled operand. -/
theorem quantize_of_not_nan {n : Nat} (hn : n ≤ 32) {v : F64} (hv : isNaN v = false) :
    quantize n v =
      if ((2 : Int) ^ (n - 1) - 1) * oneQuanta ≤ signedQuanta (fmul v (scaleOf n)) then (2 : Int) ^ (n - 1) - 1
      else if signedQuanta (fmul v (scaleOf n)) ≤ -(2 : Int) ^ (n - 1) * oneQuanta then -(2 : Int) ^ (n - 1)
      else rne (fmul v (scaleOf n)) := by
  have hp := one_le_scale n
  have hp31 := scale_le hn
  have hhi : ((2 : Int) ^ (n - 1) - 1).natAbs < 2 ^ 53 := by omega
  have hlo : (-(2 : Int) ^ (n - 1)).natAbs < 2 ^ 53 := by omega
  simp only [quantize, fge, fle_iff, hv, (fmul_scaleOf hn hv).1, isNaN_of_isFinite (f64OfInt_exact hhi).1,
    isNaN_of_isFinite (f64OfInt_exact hlo).1, signedQuanta_f64OfInt hhi, signedQuanta_f64OfInt hlo, true_and,
    Bool.false_eq_true, if_false]

/-- The quantiser of a value that is no NaN: the nearest integer of the scaled value, clamped. -/
theorem quantize_eq_clamp {n : Nat} (hn : n ≤ 32) {v : F64} (hv : isNaN v = false) {q : Int}
    (hq : RoundsTo q (signedQuanta v * 2 ^ (n - 1)) oneQuanta) :
    quantize n v = min ((2 : Int) ^ (n - 1) - 1) (max (-(2 : Int) ^ (n - 1)) q) := by
  have hone := oneQuanta_cast_pos
  have hlarge : (2 : Int) ^ (n - 1) * oneQuanta < ((2 ^ 2098 : Nat) : Int) := by
    exact_mod_cast small_mul_two_pow_lt (j := 1074)
      (lt_of_le_of_lt (Nat.pow_le_pow_right (by decide) (show n - 1 ≤ 31 by omega)) (by decide)) le_rfl
  have hp := one_le_scale n
  have hrne := roundsTo_rne (fmul v (scaleOf n))
  have hhi := roundsTo_mul ((2 : Int) ^ (n - 1) - 1) hone
  have hlo := roundsTo_mul (-(2 : Int) ^ (n - 1)) hone
  rw [quantize_of_not_nan hn hv, signedQuanta_fmul_scaleOf hn hv]
  rw [signedQuanta_fmul_scaleOf hn hv] at hrne
  generalize signedQuanta v * 2 ^ (n - 1) = x at hq hrne ⊢
  generalize (2 : Int) ^ (n - 1) = p at *
  generalize ((2 ^ 2098 : Nat) : Int) = b at *
  have hhi_eq : (p - 1) * (oneQuanta : Int) = p * oneQuanta - oneQuanta := by ring
  have hlo_eq : -p * (oneQuanta : Int) = -(p * oneQuanta) := by ring
  have hpone : (oneQuanta : Int) ≤ p * oneQuanta := le_mul_of_one_le_left hone.le hp
  split_ifs with habove hbelow
  · have hle := hhi.mono hone hq (by omega)
    omega
  · have hle := hq.mono hone hlo (by omega)
    omega
  · rw [show max (-b) (min x b) = x by omega] at hrne
    have hlow := hlo.mono hone hq (by omega)
    have hhigh := hq.mono hone hhi (by omega)
    rw [hrne.unique hone hq]
    omega

theorem exists_quantize_eq_clamp {n : Nat} (hn : n ≤ 32) {v : F64} (hv : isNaN v = false) :
    ∃ q, RoundsTo q (signedQuanta v * 2 ^ (n - 1)) oneQuanta ∧
      quantize n v = min ((2 : Int) ^ (n - 1) - 1) (max (-(2 : Int) ^ (n - 1)) q) :=
  have ⟨q, hq⟩ := exists_roundsTo (signedQuanta v * 2 ^ (n - 1)) oneQuanta_pos
  ⟨q, hq, quantize_eq_clamp hn hv hq⟩

theorem quantize_of_isNaN (n : Nat) {v : F64} (hv : isNaN v = true) : quantize n v = 0 := by
  simp [quantize, hv]

/-- The quantiser keeps the order of values. -/
theorem quantize_mono {n : Nat} (hn : n ≤ 32) {v w : F64} (h : fle v w = true) : quantize n v ≤ quantize n w := by
  obtain ⟨hv, hw, hle⟩ := (fle_iff v w).1 h
  obtain ⟨q, hq, hvq⟩ := exists_quantize_eq_clamp hn hv
  obtain ⟨r, hr, hwr⟩ := exists_quantize_eq_clamp hn hw
  have hqr := hq.mono oneQuanta_cast_pos hr (Int.mul_le_mul_of_nonneg_right hle (by positivity))
  omega

theorem quantize_bounds {n : Nat} (hn : n ≤ 32) (v : F64) :
    -(2 : Int) ^ (n - 1) ≤ quantize n v ∧ quantize n v ≤ 2 ^ (n - 1) - 1 := by
  have hp := one_le_scale n
  cases hv : isNaN v with
  | true => rw [quantize_of_isNaN n hv]; omega
  | false =>
    obtain ⟨q, -, hclamp⟩ := exists_quantize_eq_clamp hn hv
    omega

/-- A value that is an integer over the scale, or that integer beyond the range, is clamped as the integer is. -/
theorem quantize_of_mul {n : Nat} (hn : n ≤ 32) {v : F64} (hv : isNaN v = false) {i : Int}
    (h : signedQuanta v * 2 ^ (n - 1) = i * oneQuanta) :
    quantize n v = min ((2 : Int) ^ (n - 1) - 1) (max (-(2 : Int) ^ (n - 1)) i) :=
  quantize_eq_clamp hn hv (h ▸ roundsTo_mul i oneQuanta_cast_pos)

/-- Values of at least 1 are clamped to the largest integer. -/
theorem quantize_of_one_le {n : Nat} (hn : n ≤ 32) {v : F64} (hv : isNaN v = false)
    (h : (oneQuanta : Int) ≤ signedQuanta v) : quantize n v = 2 ^ (n - 1) - 1 := by
  obtain ⟨q, hq, hclamp⟩ := exists_quantize_eq_clamp hn hv
  have hp := one_le_scale n
  have hle := (roundsTo_mul ((2 : Int) ^ (n - 1)) oneQuanta_cast_pos).mono oneQuanta_cast_pos hq (by nlinarith)
  omega

/-- Values of at most -1 are clamped to the smallest integer. -/
theorem quantize_of_le_minus_one {n : Nat} (hn : n ≤ 32) {v : F64} (hv : isNaN v = false)
    (h : signedQuanta v ≤ -(oneQuanta : Int)) : quantize n v = -(2 : Int) ^ (n - 1) := by
  obtain ⟨q, hq, hclamp⟩ := exists_quantize_eq_clamp hn hv
  have hp := one_le_scale n
  have hle := hq.mono oneQuanta_cast_pos (roundsTo_mul (-(2 : Int) ^ (n - 1)) oneQuanta_cast_pos) (by nlinarith)
  omega

/-- In the range of the format nothing is clamped. -/
theorem roundsTo_quantize {n : Nat} (hn : n ≤ 32) {v : F64} (hv : isNaN v = false)
    (hlo : -(2 : Int) ^ (n - 1) * oneQuanta ≤ signedQuanta v * 2 ^ (n - 1))
    (hhi : signedQuanta v * 2 ^ (n - 1) ≤ ((2 : Int) ^ (n - 1) - 1) * oneQuanta) :
    RoundsTo (quantize n v) (signedQuanta v * 2 ^ (n - 1)) oneQuanta := by
  obtain ⟨q, hq, hclamp⟩ := exists_quantize_eq_clamp hn hv
  have hone := oneQuanta_cast_pos
  have hlow := (roundsTo_mul _ hone).mono hone hq hlo
  have hhigh := hq.mono hone (roundsTo_mul _ hone) hhi
  rwa [hclamp, max_eq_right hlow, min_eq_right hhigh]

theorem oneQuanta_le_two_pow : (oneQuanta : Int) ≤ (2 ^ 2098 : Nat) := by
  exact_mod_cast pow_le_pow_right₀ (show 1 ≤ 2 by decide) (show 1074 ≤ 2098 by decide)

theorem quantize_of_isInf {n : Nat} (hn : n ≤ 32) {v : F64} (hv : isInf v = true) :
    quantize n v = if signOf v then -(2 : Int) ^ (n - 1) else (2 : Int) ^ (n - 1) - 1 := by
  have hone := oneQuanta_le_two_pow
  rw [← quanta_of_isInf hv] at hone
  split
  next hs => exact quantize_of_le_minus_one hn (isNaN_of_isInf hv) (by rw [signedQuanta, if_pos hs]; omega)
  next hs => exact quantize_of_one_le hn (isNaN_of_isInf hv) (by rw [signedQuanta, if_neg hs]; omega)

/-- Settles O54: the nearest integer of the statement is the one that is clamped. -/
theorem quantizerClampsTheNearestInteger : Obligations.QuantizerClampsTheNearestInteger := by
  unfold Obligations.QuantizerClampsTheNearestInteger
  rw [← oneQuanta_cast]
  intro n v hn
  have hn32 : n ≤ 32 := by omega
  exact ⟨quantize_of_isNaN n, quantize_of_isInf hn32, fun q hv hnear htie =>
    quantize_eq_clamp hn32 (isNaN_of_isFinite hv) ⟨hnear, htie⟩⟩

/-! ## The raw samples of an integer format -/

theorem patternOf_signExtend {n raw : Nat} (hraw : raw < 2 ^ n) : patternOf n (signExtend n raw) = raw := by
  rw [patternOf, signExtend, two_pow_cast]
  split
  · rw [Int.emod_eq_of_lt (by omega) (by omega), Int.toNat_natCast]
  · rw [Int.sub_emod_right, Int.emod_eq_of_lt (by omega) (by omega), Int.toNat_natCast]

theorem signExtend_patternOf {n : Nat} (hn : 0 < n) {q : Int} (hlo : -(2 : Int) ^ (n - 1) ≤ q)
    (hhi : q ≤ 2 ^ (n - 1) - 1) : signExtend n (patternOf n q) = q := by
  have hdouble := two_pow_eq_double hn
  rw [two_pow_cast] at hlo hhi
  rw [signExtend, patternOf, two_pow_cast]
  by_cases hq : 0 ≤ q
  · rw [Int.emod_eq_of_lt hq (by omega)]
    split <;> omega
  · rw [← Int.add_emod_right, Int.emod_eq_of_lt (by omega) (by omega)]
    split <;> omega

theorem bits_le (fmt : Format) : 8 * fmt.bytes ≤ 32 := by cases fmt <;> decide

/-- Encoding to an integer format makes the raw sample of the quantised integer. -/
theorem sampleInt_encodeSample (v : F64) {fmt : Format} (hfmt : fmt ≠ .float32) :
    sampleInt (encodeSample v fmt) fmt = quantize (8 * fmt.bytes) v := by
  obtain ⟨hlo, hhi⟩ := quantize_bounds (bits_le fmt) v
  cases fmt
  case unsigned8 =>
    have hlow : -(128 : Int) ≤ quantize 8 v := hlo
    show ((quantize 8 v + 128).toNat : Int) - 128 = quantize 8 v
    omega
  case float32 => exact absurd rfl hfmt
  all_goals exact signExtend_patternOf (by decide) hlo hhi

/-- Encoding a value whose quantised integer is that of a raw sample makes the raw sample. -/
theorem encodeSample_of_quantize {v : F64} {fmt : Format} (hfmt : fmt ≠ .float32) {raw : Nat}
    (hraw : raw < 256 ^ fmt.bytes) (h : quantize (8 * fmt.bytes) v = sampleInt raw fmt) : encodeSample v fmt = raw := by
  rw [two_pow_bits] at hraw
  cases fmt
  case unsigned8 =>
    have h8 : quantize 8 v = (raw : Int) - 128 := h
    show (quantize 8 v + 128).toNat = raw
    omega
  case float32 => exact absurd rfl hfmt
  all_goals exact (congrArg (patternOf _) h).trans (patternOf_signExtend hraw)

theorem encodeSample_lt (v : F64) {fmt : Format} (hfmt : fmt ≠ .float32) : encodeSample v fmt < 256 ^ fmt.bytes := by
  rw [two_pow_bits]
  cases fmt
  case unsigned8 =>
    have hhi : quantize 8 v ≤ 128 - 1 := (quantize_bounds (n := 8) (by decide) v).2
    show (quantize 8 v + 128).toNat < 256
    omega
  case float32 => exact absurd rfl hfmt
  all_goals exact (Int.toNat_lt' (by decide)).2 (Int.emod_lt_of_pos _ (by decide))

/-- What decoding an encoded value gives: the quantised integer over the scale. -/
theorem signedQuanta_decode_encode (v : F64) {fmt : Format} (hfmt : fmt ≠ .float32) :
    isNaN (decodeSample (encodeSample v fmt) fmt) = false ∧
      signedQuanta (decodeSample (encodeSample v fmt) fmt) * 2 ^ (8 * fmt.bytes - 1) =
        quantize (8 * fmt.bytes) v * oneQuanta := by
  obtain ⟨hfin, hq⟩ := decodeSample_exact hfmt (encodeSample_lt v hfmt)
  rw [sampleInt_encodeSample v hfmt] at hq
  exact ⟨isNaN_of_isFinite hfin, hq⟩

end Sys2Proof.Machine
end

section
/-! PROOFS. The five rules of 40_numerics R75: round trips, saturation, signs, order and errors of encoding. -/

namespace Sys2Proof.Machine

/-! ## Integer formats -/

/-- A raw sample of an integer format decodes and encodes to itself. -/
theorem encode_decode_of_int {raw : Nat} {fmt : Format} (hfmt : fmt ≠ .float32) (hraw : raw < 256 ^ fmt.bytes) :
    encodeSample (decodeSample raw fmt) fmt = raw := by
  obtain ⟨hfin, hq⟩ := decodeSample_exact hfmt hraw
  obtain ⟨hlo, hhi⟩ := sampleInt_bounds hraw
  refine encodeSample_of_quantize hfmt hraw ?_
  rw [quantize_of_mul (bits_le fmt) (isNaN_of_isFinite hfin) hq]
  omega

theorem quantize_zero {n : Nat} (hn : n ≤ 32) : quantize n 0 = 0 := by
  have hp := one_le_scale n
  have hzero : signedQuanta 0 = 0 := by decide
  rw [quantize_of_mul hn (by decide) (i := 0) (by rw [hzero, zero_mul, zero_mul])]
  omega

theorem decode_encode_nonneg_iff (v : F64) {fmt : Format} (hfmt : fmt ≠ .float32) :
    (0 ≤ signedQuanta (decodeSample (encodeSample v fmt) fmt) ↔ 0 ≤ quantize (8 * fmt.bytes) v) ∧
      (signedQuanta (decodeSample (encodeSample v fmt) fmt) ≤ 0 ↔ quantize (8 * fmt.bytes) v ≤ 0) := by
  obtain ⟨-, hq⟩ := signedQuanta_decode_encode v hfmt
  have hp : (0 : Int) < 2 ^ (8 * fmt.bytes - 1) := by positivity
  have hone := oneQuanta_cast_pos
  have hnonneg : 0 ≤ signedQuanta (decodeSample (encodeSample v fmt) fmt) ↔ 0 ≤ quantize (8 * fmt.bytes) v := by
    rw [← mul_nonneg_iff_of_pos_right hp, hq, mul_nonneg_iff_of_pos_right hone]
  have hpos : 0 < signedQuanta (decodeSample (encodeSample v fmt) fmt) ↔ 0 < quantize (8 * fmt.bytes) v := by
    rw [← mul_pos_iff_of_pos_right hp, hq, mul_pos_iff_of_pos_right hone]
  exact ⟨hnonneg, by omega⟩

/-- Settles O57: the quantiser keeps the order of the value and zero, and decoding keeps the integer's sign. -/
theorem encodingNeverInvertsSign : Obligations.EncodingNeverInvertsSign := by
  unfold Obligations.EncodingNeverInvertsSign
  intro fmt v hfmt
  have hzero : signedQuanta 0 = 0 := by decide
  have hnan : isNaN 0 = false := by decide
  have hdec := (signedQuanta_decode_encode v hfmt).1
  obtain ⟨hnonneg, hnonpos⟩ := decode_encode_nonneg_iff v hfmt
  have hq0 := quantize_zero (bits_le fmt)
  constructor
  · intro h
    have hq := quantize_mono (bits_le fmt) h
    exact (fle_iff _ _).2 ⟨hnan, hdec, hzero ▸ hnonneg.2 (hq0 ▸ hq)⟩
  · intro h
    have hq := quantize_mono (bits_le fmt) h
    exact (fle_iff _ _).2 ⟨hdec, hnan, hzero ▸ hnonpos.2 (hq0 ▸ hq)⟩

/-- Settles O56: beyond full scale the quantiser is at an end of its range, and a NaN is silence. -/
theorem integerEncodingSaturates : Obligations.IntegerEncodingSaturates := by
  unfold Obligations.IntegerEncodingSaturates
  have hone : signedQuanta 0x3FF0000000000000 = oneQuanta := by decide +kernel
  have hminus : signedQuanta 0xBFF0000000000000 = -(oneQuanta : Int) := by decide +kernel
  refine ⟨fun v h => ?_, fun v h => ?_, fun v h => ?_⟩
  · obtain ⟨-, hv, hle⟩ := (fle_iff _ v).1 h
    rw [hone] at hle
    have hq (fmt : Format) := quantize_of_one_le (bits_le fmt) hv hle
    exact ⟨encodeSample_of_quantize (by decide) (by decide) (hq .unsigned8),
      encodeSample_of_quantize (by decide) (by decide) (hq .signed16),
      encodeSample_of_quantize (by decide) (by decide) (hq .signed24),
      encodeSample_of_quantize (by decide) (by decide) (hq .signed32)⟩
  · obtain ⟨hv, -, hle⟩ := (fle_iff v _).1 h
    rw [hminus] at hle
    have hq (fmt : Format) := quantize_of_le_minus_one (bits_le fmt) hv hle
    exact ⟨encodeSample_of_quantize (by decide) (by decide) (hq .unsigned8),
      encodeSample_of_quantize (by decide) (by decide) (hq .signed16),
      encodeSample_of_quantize (by decide) (by decide) (hq .signed24),
      encodeSample_of_quantize (by decide) (by decide) (hq .signed32)⟩
  · have hq (fmt : Format) := quantize_of_isNaN (8 * fmt.bytes) h
    exact ⟨encodeSample_of_quantize (by decide) (by decide) (hq .unsigned8),
      encodeSample_of_quantize (by decide) (by decide) (hq .signed16),
      encodeSample_of_quantize (by decide) (by decide) (hq .signed24),
      encodeSample_of_quantize (by decide) (by decide) (hq .signed32)⟩

/-- Settles O59: in range nothing is clamped, and the nearest integer is at most half of one away. -/
theorem encodingErrorIsHalfAStep : Obligations.EncodingErrorIsHalfAStep := by
  unfold Obligations.EncodingErrorIsHalfAStep
  rw [← oneQuanta_cast]
  intro fmt v hfmt hv hlo hhi
  obtain ⟨-, hdec⟩ := signedQuanta_decode_encode v hfmt
  have hbits := bits_le fmt
  have hbitsPos : 0 < 8 * fmt.bytes := by cases fmt <;> decide
  generalize decodeSample (encodeSample v fmt) fmt = d at hdec ⊢
  generalize 8 * fmt.bytes = n at *
  have hp : (0 : Int) < 2 ^ (n - 1) := by positivity
  have hstep : (oneQuanta : Int) = 2 * (2 ^ (1074 - n) * 2 ^ (n - 1)) := by
    rw [← pow_add, ← pow_succ', oneQuanta_cast]
    congr 1
    omega
  have hrange : (2 : Int) ^ (1075 - n) * 2 ^ (n - 1) = oneQuanta := by
    rw [← pow_add, oneQuanta_cast]
    congr 1
    omega
  have hnear : RoundsTo (quantize n v) (signedQuanta v * 2 ^ (n - 1)) oneQuanta := by
    refine roundsTo_quantize hbits (isNaN_of_isFinite hv) ?_ ?_
    · rw [neg_mul, mul_comm, ← neg_mul]
      exact mul_le_mul_of_nonneg_right hlo hp.le
    · rw [← hrange, ← mul_assoc]
      exact mul_le_mul_of_nonneg_right hhi hp.le
  have herror := hnear.1
  rw [← hdec, ← sub_mul, abs_mul, abs_of_pos hp, hstep, ← mul_assoc, ← mul_assoc] at herror
  have hcancel := le_of_mul_le_mul_right herror hp
  omega

/-! ## Float32 -/

theorem absBits32_lt (p : F32) : absBits32 p < 2 ^ 31 := Nat.mod_lt _ (by decide)

theorem pack32_toNat (neg : Bool) {p : Nat} (hp : p < 2 ^ 31) :
    (pack32 neg p).toNat = (if neg then 2 ^ 31 else 0) + p := by
  simp only [pack32, BitVec.toNat_ofNat]
  exact Nat.mod_eq_of_lt (by split <;> omega)

theorem absBits32_pack32 (neg : Bool) {p : Nat} (hp : p < 2 ^ 31) : absBits32 (pack32 neg p) = p := by
  rw [absBits32, pack32_toNat neg hp]
  cases neg <;> simp only [Bool.false_eq_true, if_true, if_false] <;> omega

theorem sign_pack32 (neg : Bool) {p : Nat} (hp : p < 2 ^ 31) : decide (2 ^ 31 ≤ (pack32 neg p).toNat) = neg := by
  rw [pack32_toNat neg hp]
  cases neg
  · exact decide_eq_false (by simpa using hp)
  · exact decide_eq_true (Nat.le_add_right _ _)

theorem pack32_sign_absBits32 (p : F32) : pack32 (decide (2 ^ 31 ≤ p.toNat)) (absBits32 p) = p := by
  apply BitVec.eq_of_toNat_eq
  have h := p.isLt
  rw [pack32_toNat _ (absBits32_lt p), absBits32]
  by_cases hs : 2 ^ 31 ≤ p.toNat
  · rw [decide_eq_true hs, if_pos rfl]
    omega
  · rw [decide_eq_false hs, if_neg Bool.false_ne_true]
    omega

/-- Narrowing rounds the magnitude and keeps the sign, of an infinity too. -/
theorem f32OfF64_of_not_nan {v : F64} (hv : isNaN v = false) :
    f32OfF64 v = pack32 (signOf v) (round32 (quanta v) (2 ^ 925)) := by
  rcases isFinite_or_isInf hv with hfin | hinf
  · rw [f32OfF64, hv, isInf_of_isFinite hfin]
    rfl
  · have hround : round32 (quanta v) (2 ^ 925) = infBits32 := by
      rw [quanta_of_isInf hinf, round32_eq_infBits32_iff (pow_pos Nat.two_pos 925)]
      decide +kernel
    rw [f32OfF64, hv, hinf, hround]
    rfl

theorem f32OfF64_f64OfF32 {p : F32} (hp : absBits32 p ≤ infBits32) : f32OfF64 (f64OfF32 p) = p := by
  rcases Nat.lt_or_eq_of_le hp with hlt | heq
  · obtain ⟨hfin, hs, hq⟩ := f64OfF32_of_lt hlt
    have hround : round32 (quantaOfBits 23 (absBits32 p) * 2 ^ 925) (2 ^ 925) = absBits32 p :=
      roundMagnitude_exact hp (pow_pos Nat.two_pos 925)
    rw [f32OfF64_of_not_nan (isNaN_of_isFinite hfin), hs, hq, hround, pack32_sign_absBits32]
  · have hinf : isInf (infOf (decide (2 ^ 31 ≤ p.toNat))) = true := (isInf_iff _).2 (absBits_infOf _)
    rw [f64OfF32_of_eq heq, f32OfF64, isNaN_infOf, hinf, infOf, signOf_pack _ infBits_lt_two_pow, ← heq]
    exact pack32_sign_absBits32 p

/-- Settles O55: integer samples through their integer, Float32 samples through their exact value. -/
theorem rawSamplesRoundTrip : Obligations.RawSamplesRoundTrip := by
  unfold Obligations.RawSamplesRoundTrip
  have htoNat {raw : Nat} (hraw : raw < 2 ^ 32) : (BitVec.ofNat 32 raw).toNat = raw := by simpa using hraw
  have habs {raw : Nat} (hraw : raw < 2 ^ 32) : absBits32 (BitVec.ofNat 32 raw) = raw % 2 ^ 31 := by
    rw [absBits32, htoNat hraw]
  refine ⟨fun fmt raw hraw hfloat => ?_, fun raw hraw hnan => ?_⟩
  · by_cases hfmt : fmt = .float32
    · subst hfmt
      have hle := hfloat rfl
      rw [← habs hraw] at hle
      exact (congrArg BitVec.toNat (f32OfF64_f64OfF32 hle)).trans (htoNat hraw)
    · exact encode_decode_of_int hfmt hraw
  · rw [← habs hraw] at hnan
    have hdec : decodeSample raw .float32 = nan64 := f64OfF32_of_gt hnan
    rw [hdec]
    decide

/-! ## The order of values -/

/-- The quanta of binary64 that a magnitude pattern of binary32, no NaN, is widened to. -/
def widenedQuanta (r : Nat) : Nat := if r = infBits32 then 2 ^ 2098 else quantaOfBits 23 r * 2 ^ 925

theorem widenedQuanta_mono {r s : Nat} (hrs : r ≤ s) (hs : s ≤ infBits32) : widenedQuanta r ≤ widenedQuanta s := by
  unfold widenedQuanta
  by_cases hr : r = infBits32
  · rw [if_pos hr, if_pos (by omega)]
  · rw [if_neg hr]
    split
    · exact (widened_lt_two_pow (by omega)).le
    · exact Nat.mul_le_mul_right _ (quantaOfBits_mono 23 hrs)

theorem f64OfF32_widens {p : F32} (hp : absBits32 p ≤ infBits32) :
    isNaN (f64OfF32 p) = false ∧ signOf (f64OfF32 p) = decide (2 ^ 31 ≤ p.toNat) ∧
      quanta (f64OfF32 p) = widenedQuanta (absBits32 p) := by
  rcases Nat.lt_or_eq_of_le hp with hlt | heq
  · obtain ⟨hfin, hs, hq⟩ := f64OfF32_of_lt hlt
    exact ⟨isNaN_of_isFinite hfin, hs, by rw [hq, widenedQuanta, if_neg hlt.ne]⟩
  · rw [f64OfF32_of_eq heq, widenedQuanta, if_pos heq, ← quantaOfBits_infBits]
    exact ⟨isNaN_infOf _, signOf_pack _ infBits_lt_two_pow, quanta_pack _ (Nat.le_refl _)⟩

/-- The quanta of a magnitude of binary64 after narrowing and widening. -/
def narrowedQuanta (q : Nat) : Nat := widenedQuanta (round32 q (2 ^ 925))

theorem narrowedQuanta_mono {q r : Nat} (h : q ≤ r) : narrowedQuanta q ≤ narrowedQuanta r := by
  have hpow : 0 < 2 ^ 925 := pow_pos Nat.two_pos 925
  exact widenedQuanta_mono (round32_mono hpow hpow (Nat.mul_le_mul_right _ h)) (round32_le _ _)

theorem narrowedQuanta_zero : narrowedQuanta 0 = 0 := by decide +kernel

theorem signedQuanta_narrowed {v : F64} (hv : isNaN v = false) :
    isNaN (f64OfF32 (f32OfF64 v)) = false ∧ signedQuanta (f64OfF32 (f32OfF64 v)) =
      if signOf v then -(narrowedQuanta (quanta v) : Int) else narrowedQuanta (quanta v) := by
  have hle := round32_le (quanta v) (2 ^ 925)
  have hlt : round32 (quanta v) (2 ^ 925) < 2 ^ 31 := lt_of_le_of_lt hle (by decide)
  rw [f32OfF64_of_not_nan hv]
  obtain ⟨hnan, hs, hq⟩ := f64OfF32_widens (p := pack32 (signOf v) (round32 (quanta v) (2 ^ 925)))
    ((absBits32_pack32 _ hlt).trans_le hle)
  rw [sign_pack32 _ hlt] at hs
  rw [absBits32_pack32 _ hlt] at hq
  exact ⟨hnan, by rw [signedQuanta, hs, hq, narrowedQuanta]⟩

/-- Narrowing and widening keep the order of values. -/
theorem fle_narrowed {v w : F64} (h : fle v w = true) : fle (f64OfF32 (f32OfF64 v)) (f64OfF32 (f32OfF64 w)) = true := by
  obtain ⟨hv, hw, hle⟩ := (fle_iff v w).1 h
  obtain ⟨hvnan, hvq⟩ := signedQuanta_narrowed hv
  obtain ⟨hwnan, hwq⟩ := signedQuanta_narrowed hw
  refine (fle_iff _ _).2 ⟨hvnan, hwnan, ?_⟩
  rw [hvq, hwq]
  unfold signedQuanta at hle
  cases hvs : signOf v <;> cases hws : signOf w <;>
    simp only [hvs, hws, if_true, Bool.false_eq_true, if_false] at hle ⊢
  case false.false => exact Int.ofNat_le.2 (narrowedQuanta_mono (Int.ofNat_le.1 hle))
  case true.true => exact Int.neg_le_neg (Int.ofNat_le.2 (narrowedQuanta_mono (by omega)))
  case true.false => omega
  case false.true =>
    rw [show quanta v = 0 by omega, show quanta w = 0 by omega, narrowedQuanta_zero]
    decide

/-- Settles O58: the quantised integers by the quantiser's order, Float32 by that of rounding. -/
theorem encodingIsMonotonic : Obligations.EncodingIsMonotonic := by
  unfold Obligations.EncodingIsMonotonic
  intro v w h
  have hint {fmt : Format} (hfmt : fmt ≠ .float32) :
      sampleInt (encodeSample v fmt) fmt ≤ sampleInt (encodeSample w fmt) fmt := by
    rw [sampleInt_encodeSample v hfmt, sampleInt_encodeSample w hfmt]
    exact quantize_mono (bits_le fmt) h
  have h8 : ((encodeSample v .unsigned8 : Nat) : Int) - 128 ≤ (encodeSample w .unsigned8 : Nat) - 128 :=
    hint (fmt := .unsigned8) (by decide)
  exact ⟨by omega, hint (fmt := .signed16) (by decide), hint (fmt := .signed24) (by decide),
    hint (fmt := .signed32) (by decide), fle_narrowed h⟩

end Sys2Proof.Machine
end

section
/-! PROOFS. The values another `TRANSC` chooses from (40_numerics R66, T-ACC): the three candidates of `nearby` are all the
patterns less than a unit in their last place away, and there is always one. -/

namespace Sys2Proof.Machine

/-! ## The candidates -/

/-- The gap at most doubles over two patterns. -/
theorem gapAbove_add_two_le {frac : Nat} (hfrac : 0 < frac) (p : Nat) :
    gapAbove frac (p + 2) ≤ 2 * gapAbove frac p := by
  have htwo : 2 ≤ 2 ^ frac := Nat.le_self_pow hfrac.ne' 2
  have hdiv : (p + 2) / 2 ^ frac ≤ p / 2 ^ frac + 1 := by
    rw [← Nat.add_div_right p (Nat.two_pow_pos frac)]
    exact Nat.div_le_div_right (by omega)
  rw [gapAbove, gapAbove, ← pow_succ']
  exact Nat.pow_le_pow_right (by decide) (by omega)

theorem accurate_iff {num den : Nat} (hden : 0 < den) (p : Nat) :
    accurate num den p = true ↔
      (den * ((2 ^ 54 - 1) * 2 ^ 2044) ≤ num ∧ p = infBits) ∨
      (num < den * ((2 ^ 54 - 1) * 2 ^ 2044) ∧ p < infBits ∧
        |(num : Int) - (den : Int) * (quantaOfBits 52 p : Int)| < 2 ^ (p / 2 ^ 52 - 1) * (den : Int)) := by
  have hdist : distanceTo 52 num den p < unitOf p * den ↔
      |(num : Int) - (den : Int) * (quantaOfBits 52 p : Int)| < 2 ^ (p / 2 ^ 52 - 1) * (den : Int) := by
    rw [distanceTo, unitOf, ← Int.natCast_natAbs, ← Int.ofNat_lt]
    push_cast
    rfl
  have hover := round64_eq_infBits_iff (num := num) hden
  rw [accurate]
  generalize (2 ^ 54 - 1) * 2 ^ 2044 = bound at hover ⊢
  split
  next h =>
    have hle := hover.1 h
    simp [hle, Nat.not_lt.2 hle]
  next h =>
    have hlt := Nat.lt_of_not_le (mt hover.2 h)
    simp [hlt, Nat.not_le.2 hlt, hdist]

/-- Below the overflow bound the floor is the uncapped one. -/
theorem floor64_of_lt {num den : Nat} (hnum : num < den * ((2 ^ 54 - 1) * 2 ^ 2044)) :
    floor64 num den = floorBits 52 num den ∧ floorBits 52 num den < infBits := by
  have hbound : (2 ^ 54 - 1) * 2 ^ 2044 ≤ quantaOfBits 52 infBits := by decide +kernel
  have hlt : floorBits 52 num den < infBits := by
    by_contra hge
    have hfloor := floorBits_le 52 num den
    have hmono := Nat.mul_le_mul_left den (hbound.trans (quantaOfBits_mono 52 (Nat.le_of_not_lt hge)))
    omega
  exact ⟨by rw [floor64_eq, min_eq_left hlt.le], hlt⟩

/-- The floor is less than a unit in its last place away. -/
theorem floor64_mem_nearby {num den : Nat} (hden : 0 < den) (hnum : num < den * ((2 ^ 54 - 1) * 2 ^ 2044)) :
    floor64 num den ∈ nearby num den := by
  obtain ⟨heq, hlt⟩ := floor64_of_lt hnum
  refine List.mem_filter.2 ⟨List.mem_cons_self, (accurate_iff hden _).2 (.inr ⟨hnum, heq ▸ hlt, ?_⟩)⟩
  have hlow := floorBits_le 52 num den
  have hhigh := lt_floorBits_succ 52 num hden
  rw [quantaOfBits_succ, Nat.mul_add, Nat.mul_comm den (gapAbove _ _)] at hhigh
  rw [heq, ← Nat.cast_mul, abs_of_nonneg (by omega)]
  have hcast : (2 ^ (floorBits 52 num den / 2 ^ 52 - 1) * (den : Int)) =
      ((gapAbove 52 (floorBits 52 num den) * den : Nat) : Int) := by
    rw [gapAbove]
    push_cast
    rfl
  rw [hcast]
  omega

/-- Every pattern less than a unit in its last place away is one of the three candidates. -/
theorem mem_candidates_of_accurate {num den p : Nat} (hden : 0 < den) (h : accurate num den p = true) :
    p = floor64 num den ∨ p = floor64 num den + 1 ∨ p = floor64 num den + 2 := by
  rcases (accurate_iff hden p).1 h with ⟨hover, rfl⟩ | ⟨hnum, hfin, hnear⟩
  · have hbound : quantaOfBits 52 (infBits - 1) ≤ (2 ^ 54 - 1) * 2 ^ 2044 := by decide +kernel
    have hfloor := (le_floorBits_iff (frac := 52) hden (infBits - 1)).2 ((Nat.mul_le_mul_left den hbound).trans hover)
    rw [floor64_eq]
    omega
  · obtain ⟨heq, -⟩ := floor64_of_lt hnum
    have hcast : (2 ^ (p / 2 ^ 52 - 1) * (den : Int)) = ((den * gapAbove 52 p : Nat) : Int) := by
      rw [gapAbove]
      push_cast
      ring
    rw [hcast, ← Nat.cast_mul, abs_lt] at hnear
    obtain ⟨hbelow, habove⟩ := hnear
    have hge : floorBits 52 num den ≤ p := by
      by_contra hlt
      have hnext := (le_floorBits_iff (frac := 52) (num := num) hden (p + 1)).1 (by omega)
      rw [quantaOfBits_succ, Nat.mul_add] at hnext
      omega
    have hle : p ≤ floorBits 52 num den + 2 := by
      by_contra hgt
      obtain ⟨r, rfl⟩ : ∃ r, p = r + 2 := ⟨p - 2, by omega⟩
      have hnext := mt (le_floorBits_iff (frac := 52) (num := num) hden r).2 (by omega)
      have hgap := Nat.mul_le_mul_left den (gapAbove_add_two_le (frac := 52) (by decide) r)
      have hgrow := Nat.mul_le_mul_left den (gapAbove_mono 52 (Nat.le_add_right r 1))
      rw [quantaOfBits_succ, quantaOfBits_succ, Nat.mul_add, Nat.mul_add] at hbelow
      rw [Nat.mul_left_comm] at hgap
      omega
    rw [heq]
    omega

theorem mem_nearby_iff {num den : Nat} (hden : 0 < den) (p : Nat) : p ∈ nearby num den ↔ accurate num den p = true := by
  refine ⟨accurate_of_mem_nearby, fun h => List.mem_filter.2 ⟨?_, h⟩⟩
  simpa using mem_candidates_of_accurate hden h

theorem nearby_ne_nil {num den : Nat} (hden : 0 < den) : nearby num den ≠ [] := by
  rcases Nat.lt_or_ge num (den * ((2 ^ 54 - 1) * 2 ^ 2044)) with hlt | hge
  · exact List.ne_nil_of_mem (floor64_mem_nearby hden hlt)
  · exact List.ne_nil_of_mem ((mem_nearby_iff hden infBits).2 ((accurate_iff hden infBits).2 (.inl ⟨hge, rfl⟩)))

/-! ## Sine and cosine -/

/-- The pattern below a magnitude is always near it. -/
theorem mem_nearbyAbove {d : Nat} (hd : d ≤ oneF.toNat) : d ∈ nearbyAbove d := by
  have hone : oneF.toNat + 1 < infBits := by decide
  have hbound : quantaOfBits 52 (oneF.toNat + 1) < (2 ^ 54 - 1) * 2 ^ 2044 := by decide +kernel
  have hstep := quantaOfBits_strictMono 52 (Nat.lt_add_one d)
  have hnext := quantaOfBits_mono 52 (Nat.add_le_add_right hd 1)
  have hnum : quantaOfBits 52 d + quantaOfBits 52 (d + 1) < 2 * ((2 ^ 54 - 1) * 2 ^ 2044) := by
    generalize (2 ^ 54 - 1) * 2 ^ 2044 = bound at hbound ⊢
    omega
  have hlow := (le_floorBits_iff (frac := 52) (num := quantaOfBits 52 d + quantaOfBits 52 (d + 1))
    (show 0 < 2 by decide) d).2 (by omega)
  have hhigh := mt (le_floorBits_iff (frac := 52) (num := quantaOfBits 52 d + quantaOfBits 52 (d + 1))
    (show 0 < 2 by decide) (d + 1)).1 (by omega)
  have hmem := floor64_mem_nearby (show 0 < 2 by decide) hnum
  rw [(floor64_of_lt hnum).1] at hmem
  rwa [show floorBits 52 (quantaOfBits 52 d + quantaOfBits 52 (d + 1)) 2 = d by omega] at hmem

theorem unitValues_ne_nil (neg : Bool) {ps : List Nat} {p : Nat} (hp : p ∈ ps) (hone : p ≤ oneF.toNat) :
    unitValues neg ps ≠ [] :=
  List.append_ne_nil_of_left_ne_nil
    (List.ne_nil_of_mem (List.mem_map_of_mem (List.mem_filter.2 ⟨hp, decide_eq_true hone⟩))) _

/-- The lower end of an enclosure of sine or cosine has a magnitude of at most 1. -/
theorem settle_sineEnds_le_one (neg : Bool) (quarter m fuel p : Nat) :
    absBits (settle (sineEnds floorUnit neg quarter m) fuel p) ≤ oneF.toNat := by
  obtain ⟨q, hq⟩ := settle_eq (sineEnds floorUnit neg quarter m) fuel p
  exact absBits_le_one_of_pack ⟨_, _, Nat.min_le_right _ _, hq⟩

theorem sinAllowed_ne_nil (x : F64) : sinAllowed x ≠ [] := by
  unfold sinAllowed
  split
  · exact unitValues_ne_nil (p := 0) false (by decide +kernel) (Nat.zero_le _)
  · have hone := settle_sineEnds_le_one (signOf x) 0 (quanta x) 5 (firstPrecision (quanta x))
    exact unitValues_ne_nil _ (mem_nearbyAbove hone) hone

theorem cosAllowed_ne_nil (x : F64) : cosAllowed x ≠ [] := by
  unfold cosAllowed
  split
  · exact unitValues_ne_nil (p := oneF.toNat) false (by decide +kernel) (Nat.le_refl _)
  · have hone := settle_sineEnds_le_one false 1 (quanta x) 5 128
    exact unitValues_ne_nil _ (mem_nearbyAbove hone) hone

/-! ## The power of ten -/

theorem pow10Allowed_ne_nil (x : F64) : pow10Allowed x ≠ [] := by
  unfold pow10Allowed
  split
  · split
    · exact nearby_ne_nil (by decide)
    · exact List.cons_ne_nil _ _
  · split
    · split
      · exact nearby_ne_nil (pow_pos (by decide) _)
      · exact nearby_ne_nil (by decide)
    · exact nearby_ne_nil (by decide)

/-- Settles O34: the candidates hold every accurate pattern, and a choice from a list that is not empty is in it. -/
theorem otherTranscValuesAreAccurate : Obligations.OtherTranscValuesAreAccurate := by
  unfold Obligations.OtherTranscValuesAreAccurate
  refine ⟨fun num den p hden => (mem_nearby_iff hden p).trans (accurate_iff hden p), fun num den => nearby_ne_nil,
    fun id x hx => ⟨?_, ?_⟩, fun id x hx hz => ?_⟩
  · simp only [sin64, sinOther, hx, Bool.not_true, Bool.false_eq_true, if_false]
    exact choose_mem (sinAllowed_ne_nil x) _ _
  · simp only [cos64, cosOther, hx, Bool.not_true, Bool.false_eq_true, if_false]
    exact choose_mem (cosAllowed_ne_nil x) _ _
  · simp only [pow10, pow10Other, hx, hz, Bool.not_true, Bool.or_self, Bool.false_eq_true, if_false]
    have hne : (pow10Allowed x).map (pack false) ≠ [] := List.map_eq_nil_iff.not.2 (pow10Allowed_ne_nil x)
    obtain ⟨p, hp, heq⟩ := List.mem_map.1 (choose_mem hne (Config.pow10Choice id x) (pow10Rounded x))
    exact ⟨p, hp, heq.symm⟩

end Sys2Proof.Machine
end

section
/-! PROOFS. The statements of 41_designer: the designer and DESIGN follow their checks, and at zero gain the shelf is
the identity. -/

namespace Sys2Proof.Machine

/-! ## Checks in order (60 R136) -/

/-- `r` is the cause of the first check that fails, or `v` where none does. -/
structure ReportsFirst {α : Type} (checks : List (Prop × Cause)) (r : Except Cause α) (v : α) : Prop where
  fails : ∀ c, FirstFailing checks c → r = .error c
  passes : NoneFails checks → r = .ok v

namespace ReportsFirst
variable {α β : Type} {p : Prop} {c : Cause} {checks : List (Prop × Cause)} {r : Except Cause α} {v : α}

theorem nil (h : r = .ok v) : ReportsFirst [] r v := ⟨fun _ hfirst => hfirst.elim, fun _ => h⟩

theorem cons (hfail : p → r = .error c) (hrest : ¬p → ReportsFirst checks r v) :
    ReportsFirst ((p, c) :: checks) r v where
  fails := by
    rintro d (⟨hp, rfl⟩ | ⟨hp, hd⟩)
    · exact hfail hp
    · exact (hrest hp).fails d hd
  passes := fun ⟨hp, hnone⟩ => (hrest hp).passes hnone

theorem map (g : α → β) (h : ReportsFirst checks r v) : ReportsFirst checks (r.map g) (g v) where
  fails := fun d hd => by rw [h.fails d hd, Except.map]
  passes := fun hnone => by rw [h.passes hnone, Except.map]

end ReportsFirst

/-- A reported cause is the cause of one of the checks. -/
theorem exists_mem_of_firstFailing {checks : List (Prop × Cause)} {c : Cause} (h : FirstFailing checks c) :
    ∃ p, (p, c) ∈ checks := by
  induction checks with
  | nil => exact h.elim
  | cons check rest ih =>
    rcases h with ⟨-, rfl⟩ | ⟨-, h⟩
    · exact ⟨_, List.mem_cons_self⟩
    · obtain ⟨p, hp⟩ := ih h
      exact ⟨p, List.mem_cons_of_mem _ hp⟩

/-! ## The designer's checks (41 R81, R86, R87) -/

theorem designChecked_of_some (t : Transc) {sr : Nat} {g slope f : F64} {c : Cause}
    (h : checkDesign sr g slope f = some c) : designChecked t sr g slope f = .error c := by
  rw [designChecked, h]

theorem designChecked_of_none (t : Transc) {sr : Nat} {g slope f : F64} (h : checkDesign sr g slope f = none) :
    designChecked t sr g slope f = checkFinite (design t sr g slope f) := by
  rw [designChecked, h]

/-- Each check is reached when those before it hold: `checkDesign` is their branches in this order. -/
theorem designChecked_reportsFirst (t : Transc) (sr : Nat) (g slope f : F64) :
    ReportsFirst (designCheckList t sr g slope f) (designChecked t sr g slope f) (design t sr g slope f) := by
  refine .cons (fun h => designChecked_of_some t (if_pos h)) fun hsr => ?_
  refine .cons (fun h => designChecked_of_some t ((if_neg hsr).trans (if_pos h))) fun hf => ?_
  refine .cons (fun h => designChecked_of_some t ((if_neg hsr).trans ((if_neg hf).trans (if_pos h)))) fun hslope => ?_
  refine .cons (fun h => designChecked_of_some t
    ((if_neg hsr).trans ((if_neg hf).trans ((if_neg hslope).trans (if_pos h))))) fun hg => ?_
  have hdesign := designChecked_of_none t
    ((if_neg hsr).trans ((if_neg hf).trans ((if_neg hslope).trans (if_neg hg))))
  exact .cons (fun h => hdesign.trans (if_neg h)) fun hfin => .nil (hdesign.trans (if_pos (not_not.1 hfin)))

theorem Coefs.finite_iff (k : Coefs) :
    k.finite = true ↔ isFinite k.b0 = true ∧ isFinite k.b1 = true ∧ isFinite k.b2 = true ∧
      isFinite k.a1 = true ∧ isFinite k.a2 = true := by
  simp [Coefs.finite, and_assoc]

/-- Settles O29: the checks one after the other; a design that succeeds is finite. -/
theorem designCheckedFollowsItsChecks : Obligations.DesignCheckedFollowsItsChecks := by
  unfold Obligations.DesignCheckedFollowsItsChecks
  intro tr sr g slope f
  obtain ⟨hfails, hpasses⟩ := designChecked_reportsFirst tr sr g slope f
  refine ⟨hfails, hpasses, fun k hk => ?_⟩
  obtain ⟨-, -, hfinite⟩ := designChecked_ok hk
  exact k.finite_iff.1 hfinite

/-! ## The DESIGN command (41 R88) -/

theorem State.designStaged_reportsFirst (s : State) : ReportsFirst s.designChecks s.designStaged
    (design s.params.transc s.cfg.sampleRate.toNat s.cfg.gainDb s.cfg.shelfSlope s.cfg.frequency) :=
  designChecked_reportsFirst _ _ _ _ _

theorem designCommand_eq_map (s : State) : designCommand s = s.designStaged.map s.setDsn := by
  unfold designCommand
  cases s.designStaged <;> rfl

theorem designCommand_reportsFirst (s : State) : ReportsFirst s.designChecks (designCommand s)
    (s.setDsn (design s.params.transc s.cfg.sampleRate.toNat s.cfg.gainDb s.cfg.shelfSlope s.cfg.frequency)) := by
  rw [designCommand_eq_map]
  exact s.designStaged_reportsFirst.map s.setDsn

theorem code_of_firstFailing_designChecks {s : State} {c : Cause} (h : FirstFailing s.designChecks c) : c.code = 1 := by
  obtain ⟨p, hp⟩ := exists_mem_of_firstFailing h
  simp only [State.designChecks, designCheckList, List.mem_cons, Prod.mk.injEq, List.not_mem_nil, or_false] at hp
  rcases hp with ⟨-, rfl⟩ | ⟨-, rfl⟩ | ⟨-, rfl⟩ | ⟨-, rfl⟩ | ⟨-, rfl⟩ <;> rfl

/-- Settles O31: the command reports its first failing check, and the word in `CMD` is not among what it reads. -/
theorem designWritesDesignerOutputsOnly : Obligations.DesignWritesDesignerOutputsOnly := by
  unfold Obligations.DesignWritesDesignerOutputsOnly
  intro s
  obtain ⟨hfails, hpasses⟩ := designCommand_reportsFirst (s.setCmd (encodeCommand .design))
  refine ⟨fun hnone => ?_, fun c hc => ?_⟩
  · exact congrArg Host.Outcome.next (State.issue_ok (hpasses hnone))
  · have hresult : failureResult c = BitVec.ofNat 64 (c.number * 256 + 1) := by
      rw [failureResult, code_of_firstFailing_designChecks hc, resultWord]
    rw [← hresult]
    exact congrArg Host.Outcome.next (State.issue_error (hfails c hc))

/-! ## Products with 1, 2 and -2 -/

/-- 1 is neutral for every value that an operation can give. -/
theorem fmul_oneF {a : F64} (h : a = nan64 ∨ isNaN a = false) : fmul oneF a = a := by
  have hone : isFinite oneF = true := by decide
  have hsign : signOf oneF = false := by decide
  rcases h with rfl | hnan
  · decide
  rcases isFinite_or_isInf hnan with hfin | hinf
  · rw [fmul_of_isFinite hone hfin, hsign, quanta_oneF, Nat.mul_comm, round64_quanta hfin oneQuanta_pos, Bool.false_bne,
      pack_signOf_absBits]
  · rw [(fmul_of_isInf hinf (isNaN_of_isFinite hone) (by decide)).2, hsign, Bool.bne_false]
    exact infOf_signOf hinf

theorem fmul_comm (a b : F64) : fmul a b = fmul b a := by
  simp only [fmul, bne_comm (a := signOf a), Bool.or_comm (isNaN a), Bool.or_comm (isInf a), Bool.or_comm (isZero a),
    Nat.mul_comm (quanta a)]

/-- Twice a value is no NaN and, since doubling does not underflow, no zero. -/
theorem fmul_twoF_not_nan_not_zero {a : F64} (hnan : isNaN a = false) (hz : isZero a = false) :
    isNaN (fmul twoF a) = false ∧ isZero (fmul twoF a) = false := by
  have htwo : scaleOf 2 = twoF := by decide +kernel
  obtain ⟨hprod, -, hq⟩ := fmul_scaleOf (n := 2) (by decide) hnan
  rw [htwo, fmul_comm] at hprod hq
  refine ⟨hprod, ?_⟩
  rw [Bool.eq_false_iff, ne_eq, ← quanta_eq_zero_iff, hq]
  have hbound : 0 < 2 ^ 2098 := by positivity
  exact Nat.ne_of_gt (lt_min (Nat.mul_pos (quanta_pos hz) (by decide)) hbound)

theorem signOf_absBits_fneg {a : F64} (h : isNaN a = false) :
    signOf (fneg a) = !signOf a ∧ absBits (fneg a) = absBits a := by
  rw [fneg_of_not_nan h, signOf_pack _ (absBits_lt a), absBits_pack _ (absBits_lt a)]
  exact ⟨rfl, rfl⟩

/-- A sign can be moved from one factor to the other. -/
theorem fmul_fneg_left {a b : F64} (ha : isNaN a = false) (hb : isNaN b = false) :
    fmul (fneg a) b = fmul a (fneg b) := by
  obtain ⟨hsa, haa⟩ := signOf_absBits_fneg ha
  obtain ⟨hsb, hab⟩ := signOf_absBits_fneg hb
  have hsign : ((!signOf a) != signOf b) = (signOf a != !signOf b) := by
    cases signOf a <;> cases signOf b <;> rfl
  simp only [fmul, isNaN, isInf, isZero, quanta, hsa, haa, hsb, hab, hsign]

/-! ## Sums with a zero -/

theorem eq_zeroOf_of_isZero {a : F64} (h : isZero a = true) : a = zeroOf (signOf a) := by
  rw [zeroOf, ← (isZero_iff a).1 h, pack_signOf_absBits]

/-- `+0` is neutral for every value that is no NaN and no zero. -/
theorem fadd_zero_left {a : F64} (hnan : isNaN a = false) (hz : isZero a = false) : fadd 0 a = a := by
  have hzero : isFinite 0 = true := by decide
  have hvalue : signedQuanta 0 = 0 := by decide
  rcases isFinite_or_isInf hnan with hfin | hinf
  · have hne : signedQuanta a ≠ 0 := by
      have hpos := quanta_pos hz
      unfold signedQuanta
      split <;> omega
    have hround := round64_quanta hfin Nat.one_pos
    rw [Nat.mul_one] at hround
    rw [fadd_of_isFinite hzero hfin, addFinite_eq_round64 (by rwa [hvalue, zero_add]), hvalue, zero_add,
      ← pack_round64_of_signed hne rfl, hround, pack_signOf_absBits]
  · exact (fadd_of_isInf hinf (.inl hzero)).2

theorem fmul_zero_left {a : F64} (ha : isFinite a = true) : fmul 0 a = zeroOf (signOf a) := by
  have hzero : isFinite 0 = true := by decide
  have hround := round64_quanta hzero oneQuanta_pos
  have hsign : signOf 0 = false := by decide
  rw [quanta_of_isZero (by decide), Nat.zero_mul] at hround
  rw [fmul_of_isFinite hzero ha, quanta_of_isZero (by decide), Nat.zero_mul, hround, hsign, Bool.false_bne]
  rfl

/-- A zero of either sign leaves 2 as it is. -/
theorem fadd_fsub_twoF_zeroOf (neg : Bool) : fadd twoF (zeroOf neg) = twoF ∧ fsub twoF (zeroOf neg) = twoF := by
  cases neg <;> decide +kernel

theorem quanta_le_of_isFinite {a : F64} (h : isFinite a = true) : quanta a ≤ (2 ^ 53 - 1) * 2 ^ 2045 := by
  have hmax : quantaOfBits 52 (infBits - 1) = (2 ^ 53 - 1) * 2 ^ 2045 := by decide +kernel
  rw [← hmax]
  exact quantaOfBits_mono 52 (Nat.le_sub_one_of_lt ((isFinite_iff a).1 h))

theorem round64_pos {num den : Nat} (hden : 0 < den) (h : den ≤ num) : 0 < round64 num den := by
  have hmid : den * twiceMidpoint 52 0 < 2 * num := by
    rw [show twiceMidpoint 52 0 = 1 by decide]
    omega
  rw [round64_eq]
  exact lt_min ((lt_nearestBits_iff (by decide) hden 0).2 (.inl hmid)) (by decide)

/-- 2 is too small to make a finite value that is not negative overflow, and too large for the sum to be a zero. -/
theorem fadd_twoF_finite_not_zero {b : F64} (hfin : isFinite b = true) (hsign : signOf b = false) :
    isFinite (fadd twoF b) = true ∧ isZero (fadd twoF b) = false := by
  have htwo : isFinite twoF = true := by decide
  have htwoSign : signOf twoF = false := by decide
  have hsum : fadd twoF b = pack false (round64 (quanta twoF + quanta b) 1) := by
    rw [fadd_of_isFinite htwo hfin, addFinite, htwoSign, hsign, if_pos rfl]
  have habs : absBits (fadd twoF b) = round64 (quanta twoF + quanta b) 1 := by
    rw [hsum, absBits_pack _ (round64_lt_two_pow _ _)]
  have hbelow : quanta twoF + (2 ^ 53 - 1) * 2 ^ 2045 < (2 ^ 54 - 1) * 2 ^ 2044 := by decide +kernel
  have hone : 1 ≤ quanta twoF := quanta_pos (by decide)
  have hle := quanta_le_of_isFinite hfin
  have hnotInf : round64 (quanta twoF + quanta b) 1 ≠ infBits := by
    rw [ne_eq, round64_eq_infBits_iff Nat.one_pos, Nat.one_mul, Nat.not_le]
    exact lt_of_le_of_lt (Nat.add_le_add_left hle _) hbelow
  rw [isFinite_iff, isZero, habs]
  exact ⟨lt_of_le_of_ne (round64_le _ _) hnotInf,
    decide_eq_false (round64_pos Nat.one_pos (Nat.le_add_right_of_le hone)).ne'⟩

/-! ## The shelf at zero gain (41 R90) -/

theorem amplitude_of_isZero (t : Transc) {g : F64} (hg : isZero g = true) : amplitude t g = oneF := by
  have hexponent : isZero (fdiv g fortyF) = true := by
    rw [eq_zeroOf_of_isZero hg]
    cases signOf g <;> decide +kernel
  exact pow10_of_isZero t hexponent

/-- At amplitude 1, `b1r` is `-2·(2c)` and `a1r` is `2·(-2c)`. -/
theorem rawShelf_oneF {c : F64} (beta : F64) (hc : isFinite c = true) (hz : isZero c = false) :
    rawShelf oneF c beta =
      ({ b0 := fadd twoF beta
         b1 := fmul twoF (fneg (fmul twoF c))
         b2 := fsub twoF beta
         a1 := fmul twoF (fneg (fmul twoF c))
         a2 := fsub twoF beta }, fadd twoF beta) := by
  have hap1 : fadd oneF oneF = twoF := by decide +kernel
  have ham1 : fsub oneF oneF = 0 := fadd_fneg (by decide)
  have hminus : fmul minusTwoF oneF = fneg twoF := by decide +kernel
  obtain ⟨hu, hv⟩ := fadd_fsub_twoF_zeroOf (signOf c)
  obtain ⟨hnan, hzero⟩ := fmul_twoF_not_nan_not_zero (isNaN_of_isFinite hc) hz
  obtain ⟨-, habs⟩ := signOf_absBits_fneg hnan
  have hfeedForward : fadd 0 (fmul twoF c) = fmul twoF c := fadd_zero_left hnan hzero
  have hfeedback : fsub 0 (fmul twoF c) = fneg (fmul twoF c) :=
    fadd_zero_left (by rwa [isNaN, habs]) (by rwa [isZero, habs])
  have hb0 : fmul oneF (fadd twoF beta) = fadd twoF beta := fmul_oneF (fadd_nan64_or_number _ _)
  have hb1 : fmul (fneg twoF) (fmul twoF c) = fmul twoF (fneg (fmul twoF c)) := fmul_fneg_left (by decide) hnan
  have hb2 : fmul oneF (fsub twoF beta) = fsub twoF beta := fmul_oneF (fadd_nan64_or_number _ _)
  simp only [rawShelf, hap1, ham1, hminus, fmul_zero_left hc, hu, hv, hfeedForward, hfeedback, hb0, hb1, hb2]

/-- Settles O32: the numerators of each pair are one value, and `a0r` over itself is 1. -/
theorem zeroGainGivesTheIdentityFilter : Obligations.ZeroGainGivesTheIdentityFilter := by
  unfold Obligations.ZeroGainGivesTheIdentityFilter
  intro tr sr g slope f c beta k _ hg hc hz hbeta hsign
  obtain ⟨hfinite, hnotZero⟩ := fadd_twoF_finite_not_zero hbeta hsign
  have hk : k = normalise (rawShelf oneF c beta) := by
    simp only [k, design, amplitude_of_isZero tr hg, c, beta]
  rw [hk, rawShelf_oneF beta hc hz]
  simp only [normalise, and_true]
  exact fdiv_self hfinite hnotZero

/-- Settles O30: the named parts of `design` and the constants are unfolded. -/
theorem designIsTheFixedSequence : Obligations.DesignIsTheFixedSequence := by
  unfold Obligations.DesignIsTheFixedSequence
  intros
  rfl

end Sys2Proof.Machine
end

section
/-! PROOFS. The biquad core (42 R96 to R103): the step function on zero and NaN histories, and PSAMPLE, CLEAR and
LATENCY. -/

namespace Sys2Proof.Machine

/-! ## Operands that are NaN (40_numerics R67) -/

@[simp] theorem fadd_nan64_left (b : F64) : fadd nan64 b = nan64 := rfl

theorem fadd_of_isNaN_right (a : F64) {b : F64} (h : isNaN b = true) : fadd a b = nan64 := by
  simp [fadd, h]

@[simp] theorem fadd_nan64_right (a : F64) : fadd a nan64 = nan64 := fadd_of_isNaN_right a rfl

@[simp] theorem fsub_nan64_left (b : F64) : fsub nan64 b = nan64 := rfl

@[simp] theorem fsub_nan64_right (a : F64) : fsub a nan64 = nan64 := fadd_nan64_right a

theorem fmul_of_isNaN_right (a : F64) {b : F64} (h : isNaN b = true) : fmul a b = nan64 := by
  simp [fmul, h]

/-- Each of the five values the step reads is a factor of one product, and a NaN product reaches the output. -/
theorem biquadOutput_of_isNaN (k : Coefs) {h : Slot} {x : F64}
    (hnan : isNaN x = true ∨ isNaN h.x1 = true ∨ isNaN h.x2 = true ∨ isNaN h.y1 = true ∨ isNaN h.y2 = true) :
    biquadOutput k h x = nan64 := by
  rcases hnan with hnan | hnan | hnan | hnan | hnan <;> simp [biquadOutput, fmul_of_isNaN_right _ hnan]

/-! ## Sums and differences with a zero of either sign (40_numerics R61) -/

theorem signedQuanta_of_isZero {z : F64} (hz : isZero z = true) : signedQuanta z = 0 := by
  simp [signedQuanta, quanta_of_isZero hz]

theorem signedQuanta_ne_zero {a : F64} (h : isZero a = false) : signedQuanta a ≠ 0 := by
  have hpos := quanta_pos h
  unfold signedQuanta
  split <;> omega

/-- A finite value that is no zero is its exact value, rounded. -/
theorem pack_round64_signedQuanta {a : F64} (hfin : isFinite a = true) (h : isZero a = false) :
    pack (decide (signedQuanta a < 0)) (round64 (signedQuanta a).natAbs 1) = a := by
  have hround := round64_quanta hfin Nat.one_pos
  rw [Nat.mul_one] at hround
  rw [← pack_round64_of_signed (signedQuanta_ne_zero h) rfl, hround, pack_signOf_absBits]

theorem fadd_of_isZero_right {a z : F64} (hnan : isNaN a = false) (h : isZero a = false) (hz : isZero z = true) :
    fadd a z = a := by
  have hzfin := isFinite_of_isZero hz
  rcases isFinite_or_isInf hnan with hfin | hinf
  · have hsum : signedQuanta a + signedQuanta z = signedQuanta a := by rw [signedQuanta_of_isZero hz, add_zero]
    rw [fadd_of_isFinite hfin hzfin, addFinite_eq_round64 (by rw [hsum]; exact signedQuanta_ne_zero h), hsum,
      pack_round64_signedQuanta hfin h]
  · exact (fadd_of_isInf hinf (.inl hzfin)).1

theorem isZero_fneg {z : F64} (hz : isZero z = true) : isZero (fneg z) = true := by
  obtain ⟨-, habs⟩ := signOf_absBits_fneg (isNaN_of_isFinite (isFinite_of_isZero hz))
  rwa [isZero, habs]

theorem fsub_of_isZero_right {a z : F64} (hnan : isNaN a = false) (h : isZero a = false) (hz : isZero z = true) :
    fsub a z = a :=
  fadd_of_isZero_right hnan h (isZero_fneg hz)

theorem isZero_fadd {a b : F64} (ha : isZero a = true) (hb : isZero b = true) : isZero (fadd a b) = true := by
  rw [eq_zeroOf_of_isZero ha, eq_zeroOf_of_isZero hb]
  cases signOf a <;> cases signOf b <;> decide +kernel

theorem isZero_fsub {a b : F64} (ha : isZero a = true) (hb : isZero b = true) : isZero (fsub a b) = true :=
  isZero_fadd ha (isZero_fneg hb)

/-! ## The step from a zero history (42 R98) -/

theorem isZero_fmul_zero_right {a : F64} (ha : isFinite a = true) : isZero (fmul a 0) = true := by
  rw [fmul_comm, fmul_zero_left ha]
  cases signOf a <;> decide

/-- The four products with the history are zeros, so the output is that of sums and differences with zeros. -/
theorem biquadOutput_slotZero {k : Coefs} (hk : k.finite = true) (x : F64) :
    ∃ z₁ z₂ z₃ z₄, (isZero z₁ = true ∧ isZero z₂ = true ∧ isZero z₃ = true ∧ isZero z₄ = true) ∧
      biquadOutput k Slot.zero x = fsub (fsub (fadd (fadd (fmul k.b0 x) z₁) z₂) z₃) z₄ := by
  obtain ⟨-, hb1, hb2, ha1, ha2⟩ := k.finite_iff.1 hk
  exact ⟨_, _, _, _, ⟨isZero_fmul_zero_right hb1, isZero_fmul_zero_right hb2, isZero_fmul_zero_right ha1,
    isZero_fmul_zero_right ha2⟩, rfl⟩

theorem biquadOutput_slotZero_of_not_zero {k : Coefs} (hk : k.finite = true) {x : F64} (hx : isFinite x = true)
    (hprod : isZero (fmul k.b0 x) = false) : biquadOutput k Slot.zero x = fmul k.b0 x := by
  obtain ⟨z₁, z₂, z₃, z₄, ⟨h₁, h₂, h₃, h₄⟩, hout⟩ := biquadOutput_slotZero hk x
  have hnan : isNaN (fmul k.b0 x) = false := by
    rw [fmul_of_isFinite (k.finite_iff.1 hk).1 hx]
    exact isNaN_pack_round64 _ _ _
  rw [hout, fadd_of_isZero_right hnan hprod h₁, fadd_of_isZero_right hnan hprod h₂, fsub_of_isZero_right hnan hprod h₃,
    fsub_of_isZero_right hnan hprod h₄]

theorem isZero_biquadOutput_slotZero {k : Coefs} (hk : k.finite = true) {x : F64}
    (hprod : isZero (fmul k.b0 x) = true) : isZero (biquadOutput k Slot.zero x) = true := by
  obtain ⟨z₁, z₂, z₃, z₄, ⟨h₁, h₂, h₃, h₄⟩, hout⟩ := biquadOutput_slotZero hk x
  rw [hout]
  exact isZero_fsub (isZero_fsub (isZero_fadd (isZero_fadd hprod h₁) h₂) h₃) h₄

/-! ## Commands that succeed -/

/-- A command whose body succeeds leaves the state the body gives, with `RESULT` 0 (60 R130). -/
theorem exec_of_ok {c : Command} {s u : State} (h : commandBody c (s.setCmd (encodeCommand c)) = .ok u) :
    exec c.toInstr s = .next u.succeed := by
  rw [exec_command, State.issue_ok h]

theorem clearCommand_notReady {s : State} (hr : s.ready = false) : clearCommand s = .error .notReady := if_pos hr

theorem clearCommand_ready {s : State} (hr : s.ready = true) : clearCommand s = .ok s.clearHistory := by
  rw [clearCommand, if_neg (by simp [hr])]

theorem zeroSlotsFrom_zero (h : List Slot) : zeroSlotsFrom 0 h = List.replicate h.length Slot.zero := by
  simp [zeroSlotsFrom]

/-! ## The obligations -/

/-- Settles O23: the body of LATENCY succeeds in every state. -/
theorem latencyReportsOne : Obligations.LatencyReportsOne := by
  unfold Obligations.LatencyReportsOne
  exact fun s => exec_of_ok (c := .latency) (s := s) rfl

/-- Settles O24: the history after CLEAR is as many zero slots as there were slots. -/
theorem clearZeroesTheHistory : Obligations.ClearZeroesTheHistory := by
  unfold Obligations.ClearZeroesTheHistory
  refine fun s => ⟨fun hr => ?_, fun hr => ?_⟩
  · rw [← Slot.zero, ← zeroSlotsFrom_zero]
    exact exec_of_ok (c := .clear) (clearCommand_ready (s := s.setCmd _) hr)
  · exact exec_of_error (c := .clear) (clearCommand_notReady (s := s.setCmd _) hr)

/-- Settles O25: `biquadStep` is unfolded. -/
theorem biquadStepIsTheDirectForm : Obligations.BiquadStepIsTheDirectForm := by
  unfold Obligations.BiquadStepIsTheDirectForm
  intros
  rfl

/-- Settles O26: the two failing checks, then the one slot that is stored. -/
theorem psampleStepsOneChannel : Obligations.PsampleStepsOneChannel := by
  unfold Obligations.PsampleStepsOneChannel
  refine fun s => ⟨fun hr => ?notReady, fun hr hc => ?badChannelIndex, fun hr hc hmax => ?stepped⟩
  case notReady => exact exec_of_error (c := .psample) (psampleCommand_notReady (s := s.setCmd _) hr)
  case badChannelIndex =>
    exact exec_of_error (c := .psample) (psampleCommand_badChannelIndex (s := s.setCmd _) hr (Nat.not_lt.2 hc))
  case stepped =>
    have hslot := s.setSlot_slot_same s.psChannel.toNat
      (biquadStep s.coef (s.slot s.psChannel.toNat) (valueOf s.psX)).2 (Nat.lt_of_lt_of_le hc hmax)
    exact ⟨_, exec_of_ok (c := .psample) (psampleCommand_ready (s := s.setCmd _) hr hc), rfl, Prod.ext rfl hslot,
      fun d hd => s.setSlot_slot_other _ d _ hd, s.setSlot_maxChannels _ _⟩

/-- Settles O27: the four other products are zeros, which leave a product that is no zero as it is. -/
theorem firstOutputIsTheFirstProduct : Obligations.FirstOutputIsTheFirstProduct := by
  unfold Obligations.FirstOutputIsTheFirstProduct
  intro k x hk hx
  refine ⟨biquadOutput_slotZero_of_not_zero hk hx, isZero_biquadOutput_slotZero hk, fun hone hz => ?_⟩
  have hprod : fmul k.b0 x = x := by
    rw [hone]
    exact fmul_oneF (.inr (isNaN_of_isFinite hx))
  rw [← hprod] at hz
  exact (biquadOutput_slotZero_of_not_zero hk hx hz).trans hprod

/-- Settles O28: the output is the canonical NaN when any value the step reads is a NaN, and it is the next `y1`. -/
theorem nanInTheHistoryStays : Obligations.NanInTheHistoryStays := by
  unfold Obligations.NanInTheHistoryStays
  refine ⟨fun k h x hnan => ?history, fun k h x hnan => ?input⟩
  case history =>
    have hout : biquadOutput k h x = nan64 := biquadOutput_of_isNaN k (.inr (.inr (.inr hnan)))
    exact ⟨hout, hout⟩
  case input => exact ⟨biquadOutput_of_isNaN k (by tauto), rfl⟩

end Sys2Proof.Machine
end

section
/-! PROOFS. PROCESS as one stream of steps for every channel (42 R97, R100, 43 R114 to R116): where the samples stand,
when the checks pass, and what every pass of the loop makes. -/

namespace Sys2Proof.Machine

/-! ## Where the samples stand (20_memory R35) -/

/-- Two samples of a buffer do not overlap. -/
theorem sampleOffset_apart (fmt : Format) {channels f g c d : Nat} (hc : c < channels) (hd : d < channels)
    (hne : ¬(f = g ∧ c = d)) :
    sampleOffset fmt channels f c + fmt.bytes ≤ sampleOffset fmt channels g d ∨
      sampleOffset fmt channels g d + fmt.bytes ≤ sampleOffset fmt channels f c := by
  have hindex : f * channels + c ≠ g * channels + d := by
    intro heq
    have hmod := congrArg (· % channels) heq
    simp only [Nat.mul_add_mod', Nat.mod_eq_of_lt hc, Nat.mod_eq_of_lt hd] at hmod
    subst hmod
    exact hne ⟨Nat.eq_of_mul_eq_mul_right (Nat.zero_lt_of_lt hc) (Nat.add_right_cancel heq), rfl⟩
  simp only [sampleOffset, ← Nat.succ_mul]
  exact (Nat.lt_or_gt_of_ne hindex).imp (Nat.mul_le_mul_right _) (Nat.mul_le_mul_right _)

/-- A sample of a buffer's frames is inside the buffer. -/
theorem sampleOffset_end_le (fmt : Format) {channels frames f c : Nat} (hf : f < frames) (hc : c < channels) :
    sampleOffset fmt channels f c + fmt.bytes ≤ frames * channels * fmt.bytes := by
  have hindex : f * channels + c + 1 ≤ frames * channels := by
    have hrow := Nat.mul_le_mul_right channels (Nat.succ_le_of_lt hf)
    rw [Nat.succ_mul] at hrow
    omega
  rw [sampleOffset, ← Nat.succ_mul]
  exact Nat.mul_le_mul_right _ hindex

/-- The samples from frame `j` on are a buffer of their own. -/
theorem sampleOffset_add (fmt : Format) (channels j f c : Nat) :
    sampleOffset fmt channels (j + f) c = j * channels * fmt.bytes + sampleOffset fmt channels f c := by
  simp only [sampleOffset]
  ring

theorem encodeSample_lt_bytes (v : F64) (fmt : Format) : encodeSample v fmt < 256 ^ fmt.bytes := by
  by_cases hfmt : fmt = .float32
  · subst hfmt
    exact (f32OfF64 v).isLt
  · exact encodeSample_lt v hfmt

/-! ## The checks of PROCESS (43 R115) -/

theorem State.nbytes_of_format {s : State} {fmt : Format} (hfmt : formatOfTag s.actFormat = some fmt) :
    s.nbytes = s.input.frames.toNat * s.actChannels.toNat * fmt.bytes := by
  simp [State.nbytes, hfmt]

theorem sameOrDisjoint_iff (a b : Word) (n : Nat) :
    sameOrDisjoint a.toNat b.toNat n = true ↔ a = b ∨ a.toNat + n ≤ b.toNat ∨ b.toNat + n ≤ a.toNat := by
  simp [sameOrDisjoint, BitVec.toNat_inj, or_assoc]

theorem admitted_iff (addrWidth : Nat) (regions : List Region) (base nbytes : Nat) :
    admitted addrWidth regions base nbytes = true ↔
      base + nbytes ≤ 2 ^ addrWidth ∧ WithinRegions regions base (base + nbytes) :=
  admittedMeansEveryAddressIsInTheSet addrWidth regions base nbytes

/-- `process_checks` passes exactly when no check of the list fails. -/
theorem processChecks_eq_ok_iff {s : State} {fmt : Format} (hfmt : formatOfTag s.actFormat = some fmt) :
    processChecks s = .ok fmt ↔ NoneFails s.processCheckList := by
  have hbytes : s.bufferBytes fmt = s.nbytes := (s.nbytes_of_format hfmt).symm
  constructor
  · intro h
    obtain ⟨hready, hformat, hactive, -, hframes, hchannels, hshape, hin, hout, hapart⟩ := processChecks_ok h
    rw [hbytes, admitted_iff] at hin hout
    rw [hbytes, sameOrDisjoint_iff] at hapart
    simp [NoneFails, State.processCheckList, hready, ← hformat, hactive, hframes, ← hchannels, hshape, hin, hout,
      hapart]
  · rintro ⟨hready, hformat, hframes, hchannels, hrange, hapart, -⟩
    rw [not_or, not_not, not_not, ← admitted_iff, ← admitted_iff] at hrange
    rw [not_not, ← sameOrDisjoint_iff] at hapart
    rw [processChecks, if_neg hready, if_neg hformat, hfmt]
    simp only [hbytes]
    rw [if_neg hframes, if_neg hchannels, if_neg (not_not.2 hrange), if_neg (not_not.2 hapart)]

theorem processCommand_of_noneFails {s : State} {fmt : Format} (hfmt : formatOfTag s.actFormat = some fmt)
    (h : NoneFails s.processCheckList) : processCommand s = .ok (processLoop fmt s) := by
  rw [processCommand, (processChecks_eq_ok_iff hfmt).2 h]

/-- A PROCESS with no failing check succeeds. -/
theorem execProcess_of_noneFails {s : State} {fmt : Format} (hfmt : formatOfTag s.actFormat = some fmt)
    (h : NoneFails s.processCheckList) :
    exec .process s = .next (processLoop fmt (s.setCmd (encodeCommand .process))).succeed :=
  exec_of_ok (c := .process) (processCommand_of_noneFails (s := s.setCmd _) hfmt h)

/-- What a PROCESS with no failing check leaves. -/
theorem eq_of_execProcess {s t : State} {fmt : Format} (h : exec .process s = .next t)
    (hfmt : formatOfTag s.actFormat = some fmt) (hchecks : NoneFails s.processCheckList) :
    t = (processLoop fmt (s.setCmd (encodeCommand .process))).succeed :=
  Host.Outcome.next.inj (h.symm.trans (execProcess_of_noneFails hfmt hchecks))

/-- A PROCESS that succeeds has no failing check. -/
theorem noneFails_of_execProcess {s t : State} (h : exec .process s = .next t) (ht : t.result = 0) :
    NoneFails s.processCheckList := by
  rcases exec_command_cases (c := .process) h with ⟨k, rfl⟩ | ⟨u, hu, rfl⟩
  · exact absurd ht (failureResult_ne_zero k)
  · obtain ⟨fmt, hchecks, -⟩ := processCommand_ok hu
    obtain ⟨-, -, -, hfmt, -⟩ := processChecks_ok hchecks
    exact (processChecks_eq_ok_iff hfmt).1 hchecks

/-! ## Loops -/

/-- An invariant that every pass takes from its index to the next. -/
theorem loopFrom_invariant {body : Nat → State → State} (P : Nat → State → Prop) (n first : Nat) (s : State)
    (hbody : ∀ i s, i < first + n → P i s → P (i + 1) (body i s)) (hs : P first s) :
    P (first + n) (loopFrom body n first s) := by
  induction n generalizing first s with
  | zero => exact hs
  | succ n ih =>
    have hend : first + (n + 1) = first + 1 + n := by omega
    rw [hend] at hbody ⊢
    exact ih (first + 1) (body first s) hbody (hbody first s (by omega) hs)

/-! ## One PROCESS as the streams of its channels (43 R116) -/

/-- What is left of the state `s` in which a loop of PROCESS began, once the first `done d` frames of every channel `d`
are made: histories and outputs are those of the channels' streams over the samples as they were in `s`. -/
structure ProcessedTo (s : State) (fmt : Format) (done : Nat → Nat) (t : State) : Prop where
  coef : t.coef = s.coef
  channels : t.actChannels = s.actChannels
  input : t.input = s.input
  output : t.output = s.output
  slots : t.maxChannels = s.maxChannels
  wf : Memory.wf t.mem = true
  history : ∀ d, t.slot d = s.channelHistory fmt d (done d)
  unread : ∀ f d, f < s.input.frames.toNat → d < s.actChannels.toNat → done d ≤ f →
    Memory.load t.mem (s.input.addr.toNat + sampleOffset fmt s.actChannels.toNat f d) fmt.bytes =
      Memory.load s.mem (s.input.addr.toNat + sampleOffset fmt s.actChannels.toNat f d) fmt.bytes
  written : ∀ f d, d < s.actChannels.toNat → f < done d →
    Memory.load t.mem (s.output.addr.toNat + sampleOffset fmt s.actChannels.toNat f d) fmt.bytes =
      encodeSample (s.channelOutput fmt d f) fmt
  outside : ∀ a, a < s.output.addr.toNat ∨
    s.output.addr.toNat + s.input.frames.toNat * s.actChannels.toNat * fmt.bytes ≤ a →
      Memory.read t.mem a = Memory.read s.mem a

/-- How many frames of channel `d` are made when the loop is at frame `f` and channel `c`. -/
def framesDone (channels f c d : Nat) : Nat := if d < c then f + 1 else if d < channels then f else 0

theorem framesDone_self {channels c : Nat} (f : Nat) (hc : c < channels) : framesDone channels f c c = f := by
  simp [framesDone, hc]

theorem framesDone_start (channels : Nat) : framesDone channels 0 0 = fun _ => 0 := by
  funext d
  simp [framesDone]

theorem framesDone_nextChannel {channels f c : Nat} :
    framesDone channels f (c + 1) = Function.update (framesDone channels f c) c (f + 1) := by
  funext d
  simp only [framesDone, Function.update_apply]
  split_ifs <;> omega

theorem framesDone_nextFrame (channels f : Nat) : framesDone channels f channels = framesDone channels (f + 1) 0 := by
  funext d
  simp only [framesDone]
  split_ifs <;> omega

theorem framesDone_end {channels f d : Nat} (hd : d < channels) : framesDone channels f 0 d = f := by
  simp [framesDone, hd]

theorem framesDone_above {channels f d : Nat} (hd : channels ≤ d) : framesDone channels f 0 d = 0 := by
  simp [framesDone, Nat.not_lt.2 hd]

namespace ProcessedTo

variable {s t : State} {fmt : Format} {done : Nat → Nat}

/-- Before the first pass nothing is made. -/
theorem start (fmt : Format) (w : Word) (h : Memory.wf s.mem = true) :
    ProcessedTo s fmt (fun _ => 0) (s.setCmd w) where
  coef := rfl
  channels := rfl
  input := rfl
  output := rfl
  slots := rfl
  wf := h
  history := fun _ => rfl
  unread := fun _ _ _ _ _ => rfl
  written := fun _ _ _ hf => absurd hf (Nat.not_lt_zero _)
  outside := fun _ _ => rfl

/-- The pass for the next frame of channel `c` is the next step of the channel's stream. -/
theorem processSample_eq (h : ProcessedTo s fmt done t) {c : Nat} (hc : c < s.actChannels.toNat)
    (hf : done c < s.input.frames.toNat) :
    processSample fmt (done c) c t =
      (t.setSlot c (s.channelHistory fmt c (done c + 1))).setMem
        (Memory.store t.mem (s.output.addr.toNat + sampleOffset fmt s.actChannels.toNat (done c) c) fmt.bytes
          (encodeSample (s.channelOutput fmt c (done c)) fmt)) := by
  simp only [Machine.processSample, h.input, h.output, h.coef, h.channels, h.history,
    h.unread _ _ hf hc (Nat.le_refl _)]
  rfl

section Buffers

variable (hmax : s.actChannels.toNat ≤ s.maxChannels)
  (hbuffers : s.input.addr = s.output.addr ∨
    s.input.addr.toNat + s.input.frames.toNat * s.actChannels.toNat * fmt.bytes ≤ s.output.addr.toNat ∨
    s.output.addr.toNat + s.input.frames.toNat * s.actChannels.toNat * fmt.bytes ≤ s.input.addr.toNat)

include hmax hbuffers

/-- A pass makes one frame more of its channel.  Its output falls on no sample that is still to be read: in place on the
sample it has just read, otherwise outside the input buffer. -/
theorem processSample (h : ProcessedTo s fmt done t) {f c : Nat} (hc : c < s.actChannels.toNat)
    (hf : f < s.input.frames.toNat) (hdone : done c = f) :
    ProcessedTo s fmt (Function.update done c (f + 1)) (processSample fmt f c t) := by
  subst hdone
  rw [h.processSample_eq hc hf]
  have hend := sampleOffset_end_le fmt hf hc
  refine ⟨h.coef, h.channels, h.input, h.output, (t.setSlot_maxChannels c _).trans h.slots,
    Memory.wf_store _ _ _ h.wf, fun d => ?history, fun g d hg hd hge => ?unread, fun g d hd hlt => ?written,
    fun a ha => ?outside⟩
  case history =>
    by_cases hdc : d = c
    · subst hdc
      have hslot : d < t.maxChannels := by
        rw [h.slots]
        omega
      rw [Function.update_self]
      exact t.setSlot_slot_same d _ hslot
    · rw [Function.update_of_ne hdc, ← h.history d]
      exact t.setSlot_slot_other c d _ hdc
  case unread =>
    have hother : done d ≤ g ∧ ¬(done c = g ∧ c = d) := by
      rw [Function.update_apply] at hge
      split at hge
      next hdc =>
        subst hdc
        omega
      next hdc => exact ⟨hge, fun heq => hdc heq.2.symm⟩
    have hsamples := sampleOffset_apart fmt hc hd hother.2
    have hgend := sampleOffset_end_le fmt hg hd
    rw [State.setMem_mem, Memory.load_store_disjoint _ _ _ _ _ h.wf, h.unread g d hg hd hother.1]
    rcases hbuffers with heq | hdisjoint
    · rw [heq]
      omega
    · omega
  case written =>
    by_cases hself : done c = g ∧ c = d
    · obtain ⟨rfl, rfl⟩ := hself
      rw [State.setMem_mem, Memory.load_store_same _ _ _ h.wf, Nat.mod_eq_of_lt (encodeSample_lt_bytes _ _)]
    · have hbefore : g < done d := by
        rw [Function.update_apply] at hlt
        split at hlt
        next hdc =>
          subst hdc
          omega
        next => exact hlt
      have hsamples := sampleOffset_apart fmt hc hd hself
      rw [State.setMem_mem, Memory.load_store_disjoint _ _ _ _ _ h.wf (by omega), h.written g d hd hbefore]
  case outside => rw [State.setMem_mem, Memory.read_store_outside _ _ _ _ h.wf (by omega), h.outside a ha]

theorem processFrame {f : Nat} (h : ProcessedTo s fmt (framesDone s.actChannels.toNat f 0) t)
    (hf : f < s.input.frames.toNat) :
    ProcessedTo s fmt (framesDone s.actChannels.toNat (f + 1) 0) (processFrame fmt f t) := by
  rw [← framesDone_nextFrame, Machine.processFrame, h.channels]
  have hloop := loopFrom_invariant (body := fun c => Machine.processSample fmt f c)
    (fun c u => ProcessedTo s fmt (framesDone s.actChannels.toNat f c) u) s.actChannels.toNat 0 t ?_ h
  · rwa [Nat.zero_add] at hloop
  · intro c u hc hu
    rw [Nat.zero_add] at hc
    rw [framesDone_nextChannel]
    exact hu.processSample hmax hbuffers hc hf (framesDone_self f hc)

/-- The whole loop makes every frame of every channel. -/
theorem processLoop (h : ProcessedTo s fmt (fun _ => 0) t) :
    ProcessedTo s fmt (framesDone s.actChannels.toNat s.input.frames.toNat 0) (processLoop fmt t) := by
  rw [← framesDone_start s.actChannels.toNat] at h
  rw [Machine.processLoop, h.input]
  have hloop := loopFrom_invariant (body := Machine.processFrame fmt)
    (fun f u => ProcessedTo s fmt (framesDone s.actChannels.toNat f 0) u) s.input.frames.toNat 0 t ?_ h
  · rwa [Nat.zero_add] at hloop
  · intro f u hf hu
    rw [Nat.zero_add] at hf
    exact hu.processFrame hmax hbuffers hf

end Buffers

end ProcessedTo

/-! ## The obligation -/

/-- Settles O38: the loop keeps to the channels' streams, and what it changes is history and memory. -/
theorem processRunsEveryChannelsStream : Obligations.ProcessRunsEveryChannelsStream := by
  unfold Obligations.ProcessRunsEveryChannelsStream
  intro s fmt hfilter hwf hchecks hfmt
  have hexec := execProcess_of_noneFails hfmt hchecks
  obtain ⟨hready, -, -, -, -, hbuffers, -⟩ := hchecks
  obtain ⟨-, -, hmax, -⟩ := s.filterInv_iff.1 hfilter (Bool.eq_true_of_not_eq_false hready)
  rw [not_not, s.nbytes_of_format hfmt] at hbuffers
  have hdone := (ProcessedTo.start fmt (encodeCommand .process) hwf).processLoop hmax hbuffers
  obtain ⟨⟨hist, mem, hframe⟩, -⟩ := processLoop_frame fmt (s.setCmd (encodeCommand .process))
  rw [hframe] at hexec hdone
  refine ⟨_, hexec, rfl, hdone.slots, fun f c hf hc => hdone.written f c hc ?written, fun c hc => ?history,
    fun c hc => ?otherSlots, fun a ha => ?outside⟩
  case written => rwa [framesDone_end hc]
  case history =>
    have hslot := hdone.history c
    rwa [framesDone_end hc] at hslot
  case otherSlots =>
    have hslot := hdone.history c
    rwa [framesDone_above hc] at hslot
  case outside =>
    rw [s.nbytes_of_format hfmt] at ha
    exact hdone.outside a ha

end Sys2Proof.Machine
end

section
/-! PROOFS. One PROCESS as two (42 R97): the checks pass for a part of the buffers, and two loops whose buffers begin at
different frames go on alike. -/

namespace Sys2Proof.Machine

/-! ## Parts of admitted buffers -/

/-- A buffer inside an admitted one passes its check.  Its address only wraps where it has no bytes. -/
theorem admitted_part {w base total off part : Nat} {regions : List Region} (hw : w ≤ 64) (hpart : off + part ≤ total)
    (h : base + total ≤ 2 ^ w ∧ WithinRegions regions base (base + total)) :
    (BitVec.ofNat 64 (base + off)).toNat + part ≤ 2 ^ w ∧
      WithinRegions regions (BitVec.ofNat 64 (base + off)).toNat ((BitVec.ofNat 64 (base + off)).toNat + part) := by
  obtain ⟨hrange, hwithin⟩ := h
  have hpow : 2 ^ w ≤ 2 ^ 64 := Nat.pow_le_pow_right (by decide) hw
  rw [BitVec.toNat_ofNat]
  rcases Nat.eq_zero_or_pos part with rfl | hpos
  · have hle := Nat.mod_le (base + off) (2 ^ 64)
    exact ⟨by omega, withinRegions_of_le _ (Nat.le_refl _)⟩
  · rw [Nat.mod_eq_of_lt (by omega)]
    exact ⟨by omega, fun a hl hh => hwithin a (by omega) (by omega)⟩

/-- Two buffers at the same place in buffers that are the same or disjoint are the same or disjoint. -/
theorem sameOrDisjoint_part {a b : Word} {total off part : Nat} (hpart : off + part ≤ total)
    (ha : a.toNat + total ≤ 2 ^ 64) (hb : b.toNat + total ≤ 2 ^ 64)
    (h : a = b ∨ a.toNat + total ≤ b.toNat ∨ b.toNat + total ≤ a.toNat) :
    BitVec.ofNat 64 (a.toNat + off) = BitVec.ofNat 64 (b.toNat + off) ∨
      (BitVec.ofNat 64 (a.toNat + off)).toNat + part ≤ (BitVec.ofNat 64 (b.toNat + off)).toNat ∨
      (BitVec.ofNat 64 (b.toNat + off)).toNat + part ≤ (BitVec.ofNat 64 (a.toNat + off)).toNat := by
  rcases h with rfl | h
  · exact .inl rfl
  · rw [BitVec.toNat_ofNat, BitVec.toNat_ofNat]
    omega

/-- The state with the buffers that hold `n` frames from frame `j` on. -/
def State.withPart (s : State) (fmt : Format) (j n : Nat) : State :=
  s.withBuffers (s.input.addr.toNat + j * s.actChannels.toNat * fmt.bytes)
    (s.output.addr.toNat + j * s.actChannels.toNat * fmt.bytes) n

theorem State.withPart_frames {s : State} {n : Nat} (fmt : Format) (j : Nat) (hn : n ≤ s.input.frames.toNat) :
    (s.withPart fmt j n).input.frames.toNat = n :=
  (BitVec.toNat_ofNat n 64).trans (Nat.mod_eq_of_lt (Nat.lt_of_le_of_lt hn s.input.frames.isLt))

/-- When PROCESS of the whole buffers passes its checks, so does PROCESS of a part. -/
theorem noneFails_withPart {s : State} {fmt : Format} (hfmt : formatOfTag s.actFormat = some fmt)
    (hw : s.params.addrWidth ≤ 64) {j n : Nat} (hpart : j + n ≤ s.input.frames.toNat)
    (h : NoneFails s.processCheckList) : NoneFails (s.withPart fmt j n).processCheckList := by
  obtain ⟨hready, hformat, -, hchannels, hrange, hbuffers, -⟩ := h
  have hbytes : (s.withPart fmt j n).nbytes = n * s.actChannels.toNat * fmt.bytes := by
    rw [State.nbytes_of_format (s := s.withPart fmt j n) hfmt, s.withPart_frames fmt j (by omega)]
    rfl
  have hinside : j * s.actChannels.toNat * fmt.bytes + n * s.actChannels.toNat * fmt.bytes ≤ s.nbytes := by
    rw [s.nbytes_of_format hfmt, ← Nat.add_mul, ← Nat.add_mul]
    exact Nat.mul_le_mul_right _ (Nat.mul_le_mul_right _ hpart)
  rw [not_or, not_not, not_not] at hrange
  rw [not_not] at hbuffers
  obtain ⟨hin, hout⟩ := hrange
  have hpow : 2 ^ s.params.addrWidth ≤ 2 ^ 64 := Nat.pow_le_pow_right (by decide) hw
  have hinPart := admitted_part hw hinside hin
  have houtPart := admitted_part hw hinside hout
  have hbuffersPart := sameOrDisjoint_part hinside (hin.1.trans hpow) (hout.1.trans hpow) hbuffers
  rw [← hbytes] at hinPart houtPart hbuffersPart
  exact ⟨hready, hformat, not_not.2 rfl, hchannels, not_or.2 ⟨not_not.2 hinPart, not_not.2 houtPart⟩,
    not_not.2 hbuffersPart, trivial⟩

theorem bytes_pos (fmt : Format) : 0 < fmt.bytes := by cases fmt <;> decide

/-- Where PROCESS passes its checks, the frames from frame `m` on begin at addresses of 64 bits. -/
theorem lastPart_fits {s : State} {fmt : Format} (hfmt : formatOfTag s.actFormat = some fmt)
    (hw : s.params.addrWidth ≤ 64) (hchannels : 1 ≤ s.actChannels.toNat) (h : NoneFails s.processCheckList) {m : Nat}
    (hm : m < s.input.frames.toNat) :
    s.input.addr.toNat + m * s.actChannels.toNat * fmt.bytes < 2 ^ 64 ∧
      s.output.addr.toNat + m * s.actChannels.toNat * fmt.bytes < 2 ^ 64 := by
  obtain ⟨-, -, -, -, hrange, -⟩ := h
  rw [not_or, not_not, not_not, s.nbytes_of_format hfmt] at hrange
  obtain ⟨⟨hin, -⟩, hout, -⟩ := hrange
  have hpow : 2 ^ s.params.addrWidth ≤ 2 ^ 64 := Nat.pow_le_pow_right (by decide) hw
  have hpart : m * s.actChannels.toNat * fmt.bytes < s.input.frames.toNat * s.actChannels.toNat * fmt.bytes :=
    Nat.mul_lt_mul_of_pos_right (Nat.mul_lt_mul_of_pos_right hm hchannels) (bytes_pos fmt)
  exact ⟨by omega, by omega⟩

/-! ## Loops that go on alike -/

/-- A relation that the passes of two loops keep, the one loop `j` passes ahead of the other. -/
theorem loopFrom_related {body body' : Nat → State → State} (R : State → State → Prop) (j : Nat)
    (hbody : ∀ i s t, R s t → R (body (j + i) s) (body' i t)) (n first : Nat) {s t : State} (h : R s t) :
    R (loopFrom body n (j + first) s) (loopFrom body' n first t) := by
  induction n generalizing first s t with
  | zero => exact h
  | succ n ih => exact ih (first + 1) (hbody first s t h)

/-- Two states in which PROCESS goes on alike, where the buffers of the second begin at frame `j` of those of the
first. -/
structure ProcessAlike (fmt : Format) (j : Nat) (s t : State) : Prop where
  coef : t.coef = s.coef
  channels : t.actChannels = s.actChannels
  input : t.input.addr.toNat = s.input.addr.toNat + j * s.actChannels.toNat * fmt.bytes
  output : t.output.addr.toNat = s.output.addr.toNat + j * s.actChannels.toNat * fmt.bytes
  hist : t.hist = s.hist
  mem : t.mem = s.mem

namespace ProcessAlike

variable {fmt : Format} {j : Nat} {s t : State}

theorem processSample (h : ProcessAlike fmt j s t) (f c : Nat) :
    ProcessAlike fmt j (processSample fmt (j + f) c s) (processSample fmt f c t) := by
  have hslot : t.slot c = s.slot c := by rw [State.slot, State.slot, h.hist]
  refine ⟨h.coef, h.channels, h.input, h.output, ?hist, ?mem⟩ <;>
    simp only [Machine.processSample, h.coef, h.channels, h.input, h.output, h.hist, h.mem, hslot, sampleOffset_add,
      State.setMem_hist, State.setSlot_hist, State.setMem_mem, Nat.add_assoc]

theorem processFrame (h : ProcessAlike fmt j s t) (f : Nat) :
    ProcessAlike fmt j (processFrame fmt (j + f) s) (processFrame fmt f t) := by
  rw [Machine.processFrame, Machine.processFrame, h.channels]
  refine loopFrom_related (ProcessAlike fmt j) 0 (fun c s t h => ?_) s.actChannels.toNat 0 h
  rw [Nat.zero_add]
  exact h.processSample f c

theorem frames (h : ProcessAlike fmt j s t) (n : Nat) :
    ProcessAlike fmt j (loopFrom (Machine.processFrame fmt) n j s) (loopFrom (Machine.processFrame fmt) n 0 t) :=
  loopFrom_related (ProcessAlike fmt j) j (fun f _ _ h => h.processFrame f) n 0 h

end ProcessAlike

/-- PROCESS of the first `m` frames is the loop's first `m` frames. -/
theorem processLoop_firstPart (fmt : Format) {s : State} {m : Nat} (hm : m ≤ s.input.frames.toNat) :
    ProcessAlike fmt 0 (loopFrom (processFrame fmt) m 0 s) (processLoop fmt (s.withPart fmt 0 m)) := by
  have hstart : ProcessAlike fmt 0 s (s.withPart fmt 0 m) := by
    refine ⟨rfl, rfl, ?_, ?_, rfl, rfl⟩ <;> simp [State.withPart, State.withBuffers]
  rw [processLoop, s.withPart_frames fmt 0 hm]
  exact hstart.frames m

/-- A run of frames changes neither the buffers' descriptions nor the channels. -/
theorem processFrames_keep (fmt : Format) (n first : Nat) (s : State) :
    (loopFrom (processFrame fmt) n first s).input = s.input ∧
      (loopFrom (processFrame fmt) n first s).output = s.output ∧
      (loopFrom (processFrame fmt) n first s).actChannels = s.actChannels := by
  refine loopFrom_keeps (fun t => t.input = s.input ∧ t.output = s.output ∧ t.actChannels = s.actChannels) n first s
    (fun f t _ _ ht => ?_) ⟨rfl, rfl, rfl⟩
  exact loopFrom_keeps (fun u => u.input = s.input ∧ u.output = s.output ∧ u.actChannels = s.actChannels) _ 0 t
    (fun c u _ _ hu => hu) ht

/-- After the first `m` frames, PROCESS of the buffers of the other `n` ends as PROCESS of all of them does. -/
theorem processLoop_lastPart {fmt : Format} {s t : State} {m n inAddr outAddr : Nat}
    (hframes : s.input.frames.toNat = m + n) (h : ProcessAlike fmt 0 (loopFrom (processFrame fmt) m 0 s) t)
    (hin : inAddr = s.input.addr.toNat + m * s.actChannels.toNat * fmt.bytes)
    (hout : outAddr = s.output.addr.toNat + m * s.actChannels.toNat * fmt.bytes)
    (hfits : m < s.input.frames.toNat → inAddr < 2 ^ 64 ∧ outAddr < 2 ^ 64) :
    (processLoop fmt (t.withBuffers inAddr outAddr n)).hist = (processLoop fmt s).hist ∧
      (processLoop fmt (t.withBuffers inAddr outAddr n)).mem = (processLoop fmt s).mem := by
  have hn : (t.withBuffers inAddr outAddr n).input.frames.toNat = n := by
    have hlt := s.input.frames.isLt
    exact (BitVec.toNat_ofNat n 64).trans (Nat.mod_eq_of_lt (by omega))
  rw [processLoop, processLoop, hn, hframes, loopFrom_add, Nat.zero_add]
  rcases Nat.eq_zero_or_pos n with rfl | hpos
  · exact ⟨h.hist, h.mem⟩
  · obtain ⟨hinFits, houtFits⟩ := hfits (by omega)
    obtain ⟨hinput, houtput, hchannels⟩ := processFrames_keep fmt m 0 s
    have hstart : ProcessAlike fmt m (loopFrom (processFrame fmt) m 0 s) (t.withBuffers inAddr outAddr n) := by
      refine ⟨h.coef, h.channels, ?_, ?_, h.hist, h.mem⟩
      · rw [hinput, hchannels, ← hin]
        exact (BitVec.toNat_ofNat inAddr 64).trans (Nat.mod_eq_of_lt hinFits)
      · rw [houtput, hchannels, ← hout]
        exact (BitVec.toNat_ofNat outAddr 64).trans (Nat.mod_eq_of_lt houtFits)
    have hend := hstart.frames n
    exact ⟨hend.hist, hend.mem⟩

/-! ## The obligation -/

theorem processLoop_actFormat (fmt : Format) (s : State) : (processLoop fmt s).actFormat = s.actFormat := by
  obtain ⟨⟨hist, mem, hframe⟩, -⟩ := processLoop_frame fmt s
  rw [hframe]

/-- A PROCESS changes nothing that the checks of another PROCESS read. -/
theorem noneFails_afterProcess (fmt : Format) {s : State} {a b n : Nat}
    (h : NoneFails (s.withBuffers a b n).processCheckList) :
    NoneFails ((processLoop fmt s).succeed.withBuffers a b n).processCheckList := by
  obtain ⟨⟨hist, mem, hframe⟩, -⟩ := processLoop_frame fmt s
  rw [hframe]
  exact h

/-- Settles O40: both parts pass their checks, and the loop of `m + n` frames is the loops of the two parts. -/
theorem processSplitsIntoConsecutiveProcesses : Obligations.ProcessSplitsIntoConsecutiveProcesses := by
  unfold Obligations.ProcessSplitsIntoConsecutiveProcesses
  intro s t u v fmt m n hlegal hfilter _ hfmt hframes ht hresult hu hv
  obtain ⟨-, -, -, hw⟩ := hlegal
  have hchecks := noneFails_of_execProcess ht hresult
  have hready : s.ready = true := Bool.eq_true_of_not_eq_false hchecks.1
  obtain ⟨-, hchannels, -, -⟩ := s.filterInv_iff.1 hfilter hready
  have hfirst : s.withBuffers s.input.addr.toNat s.output.addr.toNat m = s.withPart fmt 0 m := by simp [State.withPart]
  have hfirstChecks : NoneFails (s.withPart fmt 0 m).processCheckList := noneFails_withPart hfmt hw (by omega) hchecks
  have hlastChecks : NoneFails (s.withPart fmt m n).processCheckList := noneFails_withPart hfmt hw (by omega) hchecks
  rw [hfirst] at hu
  obtain rfl := eq_of_execProcess ht hfmt hchecks
  obtain rfl := eq_of_execProcess hu hfmt hfirstChecks
  have hlastFormat := (congrArg formatOfTag
    (processLoop_actFormat fmt ((s.withPart fmt 0 m).setCmd (encodeCommand .process)))).trans hfmt
  obtain rfl := eq_of_execProcess hv hlastFormat (noneFails_afterProcess fmt hlastChecks)
  have halike := processLoop_firstPart fmt (s := s.setCmd (encodeCommand .process)) (m := m)
    (hframes ▸ Nat.le_add_right m n)
  exact ⟨rfl, rfl, processLoop_lastPart (s := s.setCmd (encodeCommand .process)) hframes
    (t := (processLoop fmt ((s.withPart fmt 0 m).setCmd _)).succeed.setCmd _) { halike with } rfl rfl
    (lastPart_fits hfmt hw hchannels hchecks)⟩

end Sys2Proof.Machine
end

section
/-! PROOFS. The host transactions WR and RD (43 R110, R111): which numbers are read-write, and what every number reads
after a WR. -/

namespace Sys2Proof.Machine

/-! ## The read-write numbers (10_state R23) -/

/-- The named numbers name their registers whatever the number of slots is. -/
theorem regOfNumber_of_named {n : Nat} (m : Nat) (h : n ∈ namedNumbers) : regOfNumber m n = regOfNumber 0 n := by
  have hall : ∀ k ∈ namedNumbers, regOfNumber m k = regOfNumber 0 k := by
    simp only [namedNumbers, List.forall_mem_cons, List.not_mem_nil, false_implies, implies_true, and_true]
    and_intros <;> rfl
  exact hall n h

theorem histReg_readOnly {m n : Nat} {r : Reg} (h : histReg m n = some r) : r.hostWritable = false := by
  unfold histReg at h
  split at h
  · obtain rfl := Option.some.inj h
    rfl
  · cases h

/-- Every number of a read-write register is a named one, since the history file is read-only. -/
theorem mem_namedNumbers_of_hostWritable {m n : Nat} {r : Reg} (h : regOfNumber m n = some r)
    (hw : r.hostWritable = true) : n ∈ namedNumbers := by
  by_contra hn
  rw [regOfNumber_of_not_named m hn] at h
  exact Bool.noConfusion ((histReg_readOnly h).symm.trans hw)

/-- The numbers of the read-write registers (10_state R23). -/
theorem regOfNumber_hostWritable_iff (m n : Nat) :
    (∃ r, regOfNumber m n = some r ∧ r.hostWritable = true) ↔
      n ≤ 0x005 ∨ n = 0x008 ∨ n = 0x00C ∨ n = 0x00D ∨ (0x010 ≤ n ∧ n ≤ 0x017) := by
  have hnamed : ∀ k ∈ namedNumbers, (regOfNumber 0 k).any Reg.hostWritable = true ↔
      k ≤ 0x005 ∨ k = 0x008 ∨ k = 0x00C ∨ k = 0x00D ∨ (0x010 ≤ k ∧ k ≤ 0x017) := by decide
  rw [← Option.any_eq_true]
  constructor
  · intro h
    obtain ⟨r, hr, hw⟩ := (Option.any_eq_true ..).1 h
    have hmem := mem_namedNumbers_of_hostWritable hr hw
    rw [regOfNumber_of_named m hmem] at h
    exact (hnamed n hmem).1 h
  · intro h
    have hbelow : ∀ k < 0x018, (k ≤ 0x005 ∨ k = 0x008 ∨ k = 0x00C ∨ k = 0x00D ∨ (0x010 ≤ k ∧ k ≤ 0x017)) →
        k ∈ namedNumbers := by decide
    have hmem := hbelow n (by omega) h
    rw [regOfNumber_of_named m hmem]
    exact (hnamed n hmem).2 h

/-- The numbers other than that of `CMD` at which WR stores. -/
theorem exists_readWrite_iff {m : Nat} {n : RegNum} (hn : n ≠ cmdNumber) :
    (∃ r, regOfNumber m n.toNat = some r ∧ r.hostWritable = true) ↔
      n.toNat ≤ 0x005 ∨ n = 0x00C ∨ n = 0x00D ∨ (0x010 ≤ n.toNat ∧ n.toNat ≤ 0x017) := by
  rw [regOfNumber_hostWritable_iff]
  unfold cmdNumber at hn
  bv_omega

/-- A read-write register has one number. -/
theorem eq_of_regOfNumber_hostWritable {m a b : Nat} {r : Reg} (ha : regOfNumber m a = some r)
    (hb : regOfNumber m b = some r) (hw : r.hostWritable = true) : a = b := by
  have hinj : ∀ a ∈ namedNumbers, ∀ b ∈ namedNumbers, regOfNumber 0 a = regOfNumber 0 b → a = b := by decide
  have hamem := mem_namedNumbers_of_hostWritable ha hw
  have hbmem := mem_namedNumbers_of_hostWritable hb hw
  rw [regOfNumber_of_named m hamem] at ha
  rw [regOfNumber_of_named m hbmem] at hb
  exact hinj a hamem b hbmem (ha.trans hb.symm)

theorem execWr_of_readWrite {s : State} {n : RegNum} {r : Reg} (v : Word) (hn : n ≠ cmdNumber)
    (hr : regOfNumber s.maxChannels n.toNat = some r) (hw : r.hostWritable = true) :
    execWr n v s = .next (s.writeReg r v) := by
  have hcmd : r ≠ .cmd := fun e => hn (eq_cmdNumber_of_regOfNumber (e ▸ hr))
  simp [execWr, hr, hw, hcmd]

theorem execWr_of_not_readWrite {s : State} {n : RegNum} (v : Word)
    (h : ¬∃ r, regOfNumber s.maxChannels n.toNat = some r ∧ r.hostWritable = true) : execWr n v s = .next s := by
  cases hr : regOfNumber s.maxChannels n.toNat with
  | none => exact execWr_of_none v hr
  | some r => exact execWr_of_readOnly v hr (Bool.eq_false_of_not_eq_true fun hw => h ⟨r, hr, hw⟩)

/-! ## Registers after a register is stored -/

theorem State.writeReg_of_readOnly {r : Reg} (s : State) (v : Word) (hr : r.hostWritable = false) :
    s.writeReg r v = s := by
  cases r <;> cases hr <;> rfl

theorem State.writeReg_reg_same {r : Reg} (s : State) (v : Word) (hw : r.hostWritable = true) :
    (s.writeReg r v).reg r = v := by
  cases r <;> cases hw <;> rfl

theorem State.writeReg_reg_other {r q : Reg} (s : State) (v : Word) (hq : q ≠ r) :
    (s.writeReg r v).reg q = s.reg q := by
  cases hr : r.hostWritable with
  | false => rw [s.writeReg_of_readOnly v hr]
  | true => cases r <;> cases hr <;> cases q <;> trivial

/-- A read-write register is stored at its number, and every other number reads as before. -/
theorem State.writeReg_readNumber {s : State} {n : RegNum} {r : Reg} (v : Word)
    (hr : regOfNumber s.maxChannels n.toNat = some r) (hw : r.hostWritable = true) (m : RegNum) :
    (s.writeReg r v).readNumber m = if m = n then v else s.readNumber m := by
  have hmax : (s.writeReg r v).maxChannels = s.maxChannels := congrArg List.length (ReadOnlyKept.writeReg s r v).hist
  by_cases hm : m = n
  · subst hm
    rw [if_pos rfl, readNumber_of_some (hmax ▸ hr), s.writeReg_reg_same v hw]
  · rw [if_neg hm]
    cases hq : regOfNumber s.maxChannels m.toNat with
    | none => rw [readNumber_of_none hq, readNumber_of_none (hmax ▸ hq)]
    | some q =>
      have hne : q ≠ r := by
        rintro rfl
        exact hm (BitVec.eq_of_toNat_eq (eq_of_regOfNumber_hostWritable hq hr hw))
      rw [readNumber_of_some hq, readNumber_of_some (hmax ▸ hq), s.writeReg_reg_other v hne]

theorem State.writeReg_hostSide (s : State) (r : Reg) (v : Word) :
    (s.writeReg r v).params = s.params ∧ (s.writeReg r v).script = s.script ∧
      (s.writeReg r v).returned = s.returned := by
  cases r <;> exact ⟨rfl, rfl, rfl⟩

/-- A word written to `CMD` stays there, whatever its command does. -/
theorem State.execute_cmd (s : State) (w : Word) : (s.execute w).cmd = w := by
  rcases s.execute_cases w with ⟨e, -, h⟩ | ⟨c, -, h⟩
  · rw [h, State.fail_cmd, State.setCmd_cmd]
  · rcases s.issue_cases w (commandBody c) with ⟨k, -, hk⟩ | ⟨u, hu, hk⟩
    · rw [h, hk, State.fail_cmd, State.setCmd_cmd]
    · rw [h, hk, State.succeed_cmd]
      cases commandBody_writes hu <;> rfl

/-! ## The obligations -/

/-- Settles O12: the numbers that store are those of the read-write registers, and a stored register has one number. -/
theorem wrStoresReadWriteRegistersOnly : Obligations.WrStoresReadWriteRegistersOnly := by
  unfold Obligations.WrStoresReadWriteRegistersOnly
  refine ⟨fun n v s hn => ?otherNumber, fun v s => ?cmd, exec_wr_encodeCommand⟩
  case cmd => exact ⟨_, execWr_cmd v s, s.execute_cmd v⟩
  case otherNumber =>
    have hnumbers := exists_readWrite_iff (m := s.maxChannels) hn
    by_cases hstores : ∃ r, regOfNumber s.maxChannels n.toNat = some r ∧ r.hostWritable = true
    · obtain ⟨r, hr, hw⟩ := hstores
      have hkept := ReadOnlyKept.writeReg s r v
      have hnumber := hnumbers.1 ⟨r, hr, hw⟩
      exact ⟨s.writeReg r v, execWr_of_readWrite v hn hr hw,
        fun m => by simp only [s.writeReg_readNumber v hr hw m, hnumber, and_true],
        hkept.hist, hkept.mem, s.writeReg_hostSide r v⟩
    · exact ⟨s, execWr_of_not_readWrite v hstores, fun m => (if_neg fun h => hstores (hnumbers.2 h.2)).symm,
        rfl, rfl, rfl, rfl, rfl⟩

/-- Settles O13: `readNumber` is looked up in the register map. -/
theorem rdReturnsTheRegister : Obligations.RdReturnsTheRegister := by
  unfold Obligations.RdReturnsTheRegister
  intros
  rfl

end Sys2Proof.Machine
end

section
/-! PROOFS. NEW and REINIT (43 R112, R113, R121): their checks in order, the filter they build, and the history they
leave. -/

namespace Sys2Proof.Machine

/-! ## The checks of NEW and REINIT (41 R82, 60 R136) -/

theorem formatOfTag_isNone_iff (tag : Word) :
    (formatOfTag tag).isNone = true ↔ ¬(1 ≤ tag.toNat ∧ tag.toNat ≤ 5) := by
  constructor
  · rintro h ⟨hlow, hhigh⟩
    have htag : tag.toNat = 1 ∨ tag.toNat = 2 ∨ tag.toNat = 3 ∨ tag.toNat = 4 ∨ tag.toNat = 5 := by omega
    rcases htag with htag | htag | htag | htag | htag <;> simp [formatOfTag, htag] at h
  · intro h
    rw [formatOfTag_eq_none (by omega)]
    rfl

/-- The format and the channel count are checked before the design. -/
theorem State.configChecked_reportsFirst (s : State) : ReportsFirst s.newChecks s.configChecked
    (design s.params.transc s.cfg.sampleRate.toNat s.cfg.gainDb s.cfg.shelfSlope s.cfg.frequency) := by
  refine .cons (fun h => if_pos ((formatOfTag_isNone_iff _).2 h)) fun hformat => ?_
  rw [← formatOfTag_isNone_iff] at hformat
  refine .cons (fun h => (if_neg hformat).trans (if_pos h)) fun hchannels => ?_
  have hstaged : s.configChecked = s.designStaged := (if_neg hformat).trans (if_neg hchannels)
  rw [hstaged]
  exact s.designStaged_reportsFirst

theorem failureResult_of_newChecks {s : State} {c : Cause} (h : FirstFailing s.newChecks c) :
    failureResult c = BitVec.ofNat 64 (c.number * 256 + 1) := by
  have hcode : c.code = 1 := by
    rcases h with ⟨-, rfl⟩ | ⟨-, ⟨-, rfl⟩ | ⟨-, hdesign⟩⟩
    · rfl
    · rfl
    · exact code_of_firstFailing_designChecks hdesign
  rw [failureResult, hcode, resultWord]

/-! ## The commands -/

/-- The filter of the staged Configuration with the coefficients `k`; its history is zero from slot `n` up. -/
def State.configured (s : State) (n : Nat) (k : Coefs) : State :=
  ((s.setCoef k).setShape s.cfg.format s.cfg.channels).setHist (zeroSlotsFrom n s.hist)

theorem newCommand_eq_map (s : State) :
    newCommand s = s.configChecked.map fun k => (s.configured 0 k).setStatus (statusReady s.status) := by
  unfold newCommand
  cases s.configChecked <;> rfl

theorem newCommand_reportsFirst (s : State) : ReportsFirst s.newChecks (newCommand s)
    ((s.configured 0 (design s.params.transc s.cfg.sampleRate.toNat s.cfg.gainDb s.cfg.shelfSlope
      s.cfg.frequency)).setStatus (statusReady s.status)) := by
  rw [newCommand_eq_map]
  exact s.configChecked_reportsFirst.map fun k => (s.configured 0 k).setStatus (statusReady s.status)

theorem reinitCommand_notReady {s : State} (hr : s.ready = false) : reinitCommand s = .error .notReady := if_pos hr

theorem reinitCommand_eq_map {s : State} (hr : s.ready = true) :
    reinitCommand s = s.configChecked.map (s.configured (min s.actChannels.toNat s.cfg.channels.toNat)) := by
  rw [reinitCommand, if_neg (by simp [hr])]
  cases s.configChecked <;> rfl

theorem reinitCommand_reportsFirst {s : State} (hr : s.ready = true) : ReportsFirst s.newChecks (reinitCommand s)
    (s.configured (min s.actChannels.toNat s.cfg.channels.toNat)
      (design s.params.transc s.cfg.sampleRate.toNat s.cfg.gainDb s.cfg.shelfSlope s.cfg.frequency)) := by
  rw [reinitCommand_eq_map hr]
  exact s.configChecked_reportsFirst.map (s.configured _)

/-- Nothing is left to zero where the slots from `ACT_CHANNELS` up are zero (10_state R28 item 4). -/
theorem State.zeroSlotsFrom_actChannels {s : State} (h : s.unusedSlotsInv = true) :
    zeroSlotsFrom s.actChannels.toNat s.hist = s.hist := by
  have hdrop : s.hist.drop s.actChannels.toNat =
      List.replicate (s.hist.drop s.actChannels.toNat).length Slot.zero :=
    List.eq_replicate_of_mem (by simpa [State.unusedSlotsInv] using h)
  rw [List.length_drop] at hdrop
  rw [zeroSlotsFrom, ← hdrop, List.take_append_drop]

/-! ## The obligations -/

/-- Settles O35: the checks of NEW in order, then the filter with every slot zeroed. -/
theorem newConstructsTheFilter : Obligations.NewConstructsTheFilter := by
  unfold Obligations.NewConstructsTheFilter
  intro s
  obtain ⟨hfails, hpasses⟩ := newCommand_reportsFirst (s.setCmd (encodeCommand .new))
  refine ⟨fun hnone => ?_, fun c hc => ?_⟩
  · rw [← Slot.zero, ← zeroSlotsFrom_zero]
    exact exec_of_ok (c := .new) (hpasses hnone)
  · rw [← failureResult_of_newChecks hc]
    exact exec_of_error (c := .new) (hfails c hc)

/-- Settles O36: the checks in order, then the filter with the slots zeroed that do not stay. -/
theorem reinitRedesignsAndKeepsHistory : Obligations.ReinitRedesignsAndKeepsHistory := by
  unfold Obligations.ReinitRedesignsAndKeepsHistory
  refine fun s => ⟨fun hr hnone => ?redesigned, fun hr => ?notReady, fun c hr hc => ?failed⟩
  case redesigned =>
    obtain ⟨-, hpasses⟩ := reinitCommand_reportsFirst (s := s.setCmd (encodeCommand .reinit)) hr
    exact ⟨_, exec_of_ok (c := .reinit) (hpasses hnone), zeroSlotsFrom_length _ _,
      fun c _ => zeroSlotsFrom_getD _ c s.hist⟩
  case notReady => exact exec_of_error (c := .reinit) (reinitCommand_notReady (s := s.setCmd _) hr)
  case failed =>
    obtain ⟨hfails, -⟩ := reinitCommand_reportsFirst (s := s.setCmd (encodeCommand .reinit)) hr
    rw [← failureResult_of_newChecks hc]
    exact exec_of_error (c := .reinit) (hfails c hc)

/-- Settles O37: a failure writes no history, and a success zeroes the slots from `ACT_CHANNELS` up, which are zero. -/
theorem reinitWithSameChannelsKeepsAllHistory : Obligations.ReinitWithSameChannelsKeepsAllHistory := by
  unfold Obligations.ReinitWithSameChannelsKeepsAllHistory
  intro s t hunused hchannels ht
  rcases exec_command_cases (c := .reinit) ht with ⟨k, rfl⟩ | ⟨u, hu, rfl⟩
  · rfl
  · obtain ⟨-, k, -, rfl⟩ := reinitCommand_ok hu
    calc zeroSlotsFrom (min s.actChannels.toNat s.cfg.channels.toNat) s.hist
      _ = zeroSlotsFrom s.actChannels.toNat s.hist := by rw [hchannels, Nat.min_self]
      _ = s.hist := s.zeroSlotsFrom_actChannels hunused

end Sys2Proof.Machine
end

section
/-! PROOFS. What PROCESS leaves alone (43 R119, R120): its checks in order, the part of the state that no pass touches,
and the staging registers, which it does not read. -/

namespace Sys2Proof.Machine

/-! ## The checks of PROCESS in order (43 R115) -/

/-- The active format is read between the second check and the third. -/
theorem processChecks_reportsFirst {s : State} {fmt : Format} (hfmt : formatOfTag s.actFormat = some fmt) :
    ReportsFirst s.processCheckList (processChecks s) fmt := by
  refine .cons (fun h => if_pos h) fun hready => .cons (fun h => (if_neg hready).trans (if_pos h)) fun hformat => ?_
  rw [processChecks, if_neg hready, if_neg hformat, hfmt]
  simp only [(s.nbytes_of_format hfmt).symm, State.bufferBytes, ← not_and_or, ← admitted_iff, ← sameOrDisjoint_iff]
  refine .cons (fun h => if_pos h) fun hframes => ?_
  rw [if_neg hframes]
  refine .cons (fun h => if_pos h) fun hchannels => ?_
  rw [if_neg hchannels]
  refine .cons (fun h => if_pos h) fun hrange => ?_
  rw [if_neg hrange]
  exact .cons (fun h => if_pos h) fun hapart => .nil (if_neg hapart)

theorem processCommand_eq_map (s : State) : processCommand s = (processChecks s).map (processLoop · s) := by
  unfold processCommand
  cases processChecks s <;> rfl

/-- A PROCESS with a failing check reports the first. -/
theorem execProcess_of_firstFailing {s : State} {fmt : Format} {c : Cause}
    (hfmt : formatOfTag s.actFormat = some fmt) (h : FirstFailing s.processCheckList c) :
    exec .process s = .next { s with cmd := 3, result := failureResult c } := by
  have hchecks := (processChecks_reportsFirst (s := s.setCmd (encodeCommand .process)) hfmt).fails c h
  exact exec_of_error (c := .process) (by rw [commandBody, processCommand_eq_map, hchecks, Except.map])

theorem exists_format_of_filterInv {s : State} (hfilter : s.filterInv = true) (hr : s.ready = true) :
    ∃ fmt, formatOfTag s.actFormat = some fmt := by
  obtain ⟨hformat, -⟩ := s.filterInv_iff.1 hfilter hr
  exact Option.isSome_iff_exists.1 hformat

/-! ## No frames (43 R119) -/

theorem processLoop_of_no_frames (fmt : Format) {s : State} (h : s.input.frames = 0) : processLoop fmt s = s := by
  rw [processLoop, h]
  rfl

theorem State.nbytes_of_no_frames {s : State} (h : s.input.frames = 0) : s.nbytes = 0 := by
  simp [State.nbytes, h]

/-- Settles O41: a buffer without bytes is admitted exactly where its address is in range, and lies apart from every
other. -/
theorem processOfZeroFramesTouchesNothing : Obligations.ProcessOfZeroFramesTouchesNothing := by
  unfold Obligations.ProcessOfZeroFramesTouchesNothing
  intro s hfilter hr hinFormat houtFormat hinChannels houtChannels hinFrames houtFrames
  obtain ⟨fmt, hfmt⟩ := exists_format_of_filterInv hfilter hr
  have hready : ¬s.ready = false := by simp [hr]
  have hformats : ¬(s.input.format ≠ s.output.format ∨ s.input.format ≠ s.actFormat) := by
    simp [hinFormat, houtFormat]
  have hframes : ¬s.input.frames ≠ s.output.frames := by simp [hinFrames, houtFrames]
  have hchannels : ¬(s.input.channels ≠ s.output.channels ∨ s.input.channels ≠ s.actChannels) := by
    simp [hinChannels, houtChannels]
  have hbytes := State.nbytes_of_no_frames hinFrames
  refine ⟨fun hin hout => ?succeeds, fun habove => ?fails⟩
  case succeeds =>
    have hchecks : NoneFails s.processCheckList := by
      refine ⟨hready, hformats, hframes, hchannels, ?_, ?_, trivial⟩ <;> rw [hbytes]
      · exact not_or.2 ⟨not_not.2 ⟨hin, withinRegions_of_le _ (Nat.le_refl _)⟩,
          not_not.2 ⟨hout, withinRegions_of_le _ (Nat.le_refl _)⟩⟩
      · exact not_not.2 (.inr (Nat.le_total _ _))
    rw [execProcess_of_noneFails hfmt hchecks,
      processLoop_of_no_frames fmt (s := s.setCmd (encodeCommand .process)) hinFrames]
    rfl
  case fails =>
    have hfirst : FirstFailing s.processCheckList .badRange := by
      refine .inr ⟨hready, .inr ⟨hformats, .inr ⟨hframes, .inr ⟨hchannels, .inl ⟨?_, rfl⟩⟩⟩⟩⟩
      rw [hbytes]
      exact habove.imp (fun h hrange => Nat.not_lt.2 hrange.1 h) (fun h hrange => Nat.not_lt.2 hrange.1 h)
    exact execProcess_of_firstFailing hfmt hfirst

/-! ## What no pass touches (43 R120) -/

/-- A state in the loop of PROCESS that began in `s`: the slots from `ACT_CHANNELS` up and the bytes outside the output
buffer are as they were. -/
structure ProcessLeaves (s : State) (fmt : Format) (t : State) : Prop where
  channels : t.actChannels = s.actChannels
  output : t.output = s.output
  wf : Memory.wf t.mem = true
  slots : ∀ c, s.actChannels.toNat ≤ c → t.slot c = s.slot c
  outside : ∀ a, a < s.output.addr.toNat ∨
    s.output.addr.toNat + s.input.frames.toNat * s.actChannels.toNat * fmt.bytes ≤ a →
      Memory.read t.mem a = Memory.read s.mem a

namespace ProcessLeaves

variable {s t : State} {fmt : Format}

theorem processSample (h : ProcessLeaves s fmt t) {f c : Nat} (hf : f < s.input.frames.toNat)
    (hc : c < s.actChannels.toNat) : ProcessLeaves s fmt (processSample fmt f c t) where
  channels := h.channels
  output := h.output
  wf := Memory.wf_store _ _ _ h.wf
  slots := fun d hd => (t.setSlot_slot_other c d _ (by omega)).trans (h.slots d hd)
  outside := fun a ha => by
    have hend := sampleOffset_end_le fmt hf hc
    rw [Machine.processSample, State.setMem_mem, h.output, h.channels,
      Memory.read_store_outside _ _ _ _ h.wf (by omega), h.outside a ha]

theorem processFrame (h : ProcessLeaves s fmt t) {f : Nat} (hf : f < s.input.frames.toNat) :
    ProcessLeaves s fmt (processFrame fmt f t) := by
  refine loopFrom_keeps (ProcessLeaves s fmt) _ 0 t (fun c u _ hc hu => hu.processSample hf ?_) h
  rwa [h.channels, Nat.zero_add] at hc

theorem processLoop (fmt : Format) (h : Memory.wf s.mem = true) : ProcessLeaves s fmt (processLoop fmt s) :=
  loopFrom_keeps (ProcessLeaves s fmt) _ 0 s (fun f _ _ hf hu => hu.processFrame (by omega))
    ⟨rfl, rfl, h, fun _ _ => rfl, fun _ _ => rfl⟩

end ProcessLeaves

/-! ## The staging registers -/

theorem processLoop_setCfg (fmt : Format) (s : State) (k : Configuration) :
    processLoop fmt (s.setCfg k) = (processLoop fmt s).setCfg k :=
  loopFrom_comm (body := processFrame fmt) (·.setCfg k)
    (fun f t => loopFrom_comm (body := processSample fmt f) (·.setCfg k) (fun _ _ => rfl) t.actChannels.toNat 0 t)
    s.input.frames.toNat 0 s

theorem processCommand_setCfg (s : State) (k : Configuration) :
    processCommand (s.setCfg k) = (processCommand s).map (·.setCfg k) := by
  have hchecks : processChecks (s.setCfg k) = processChecks s := rfl
  rw [processCommand_eq_map, processCommand_eq_map, hchecks]
  cases processChecks s with
  | error c => rfl
  | ok fmt => exact congrArg Except.ok (processLoop_setCfg fmt s k)

/-- A command whose body does not see the staging registers ends with them as they were. -/
theorem State.issue_setCfg {body : State → Except Cause State} {k : Configuration}
    (hbody : ∀ s : State, body (s.setCfg k) = (body s).map (·.setCfg k)) (s : State) (w : Word) :
    (s.setCfg k).issue w body = (s.issue w body).setCfg k := by
  have hcommute : body ((s.setCfg k).setCmd w) = (body (s.setCmd w)).map (·.setCfg k) := hbody (s.setCmd w)
  rw [State.issue, State.issue, hcommute]
  cases body (s.setCmd w) <;> rfl

/-- PROCESS neither reads the staging registers nor writes them. -/
theorem execProcess_setCfg {s t : State} (k : Configuration) (h : exec .process s = .next t) :
    exec .process (s.setCfg k) = .next (t.setCfg k) := by
  obtain rfl := Host.Outcome.next.inj h
  exact congrArg Host.Outcome.next (State.issue_setCfg (processCommand_setCfg · k) s _)

/-- Settles O42: a failure leaves everything, a success what no pass touches, and `cfg` is not read.  (The name
`processFrame` is the model's.) -/
theorem process_frame : Obligations.ProcessFrame := by
  unfold Obligations.ProcessFrame
  intro s t hwf ht
  have hcfg : ∀ k, exec .process (s.setCfg k) = .next (t.setCfg k) := fun k => execProcess_setCfg k ht
  rcases exec_command_cases (c := .process) ht with ⟨k, rfl⟩ | ⟨u, hu, rfl⟩
  · exact ⟨rfl, fun _ _ => rfl, fun _ _ => rfl, hcfg⟩
  · obtain ⟨fmt, hchecks, rfl⟩ := processCommand_ok hu
    obtain ⟨-, -, -, hfmt, -⟩ := processChecks_ok hchecks
    obtain ⟨⟨hist, mem, hframe⟩, -⟩ := processLoop_frame fmt (s.setCmd (encodeCommand .process))
    have hleaves := ProcessLeaves.processLoop (s := s.setCmd (encodeCommand .process)) fmt hwf
    rw [s.nbytes_of_format hfmt]
    refine ⟨?_, hleaves.slots, hleaves.outside, hcfg⟩
    rw [hframe]
    rfl

end Sys2Proof.Machine
end

section
/-! PROOFS. PROCESS in place against PROCESS into a separate buffer (43 R117): both are the streams of the same samples
from the same histories. -/

namespace Sys2Proof.Machine

/-! ## Streams of the same samples -/

/-- A channel's history depends on the coefficients, its first history and its samples. -/
theorem channelHistory_congr {s s' : State} {fmt : Format} {c n : Nat} (hcoef : s'.coef = s.coef)
    (hslot : s'.slot c = s.slot c) (hinput : ∀ f, f < n → s'.inputSample fmt f c = s.inputSample fmt f c) :
    s'.channelHistory fmt c n = s.channelHistory fmt c n := by
  induction n with
  | zero => exact hslot
  | succ n ih =>
    rw [State.channelHistory, State.channelHistory, hcoef, hinput n (Nat.lt_add_one n),
      ih fun f hf => hinput f (Nat.lt_add_right 1 hf)]

theorem channelOutput_congr {s s' : State} {fmt : Format} {c f : Nat} (hcoef : s'.coef = s.coef)
    (hslot : s'.slot c = s.slot c) (hinput : ∀ g, g ≤ f → s'.inputSample fmt g c = s.inputSample fmt g c) :
    s'.channelOutput fmt c f = s.channelOutput fmt c f := by
  rw [State.channelOutput, State.channelOutput, hcoef, hinput f (Nat.le_refl f),
    channelHistory_congr hcoef hslot fun g hg => hinput g (Nat.le_of_lt hg)]

/-! ## The bytes of a buffer -/

/-- Samples that are the same number have the same bytes. -/
theorem Memory.read_eq_of_load_eq {m m' : List Host.Cell} {a b n i : Nat}
    (h : Memory.load m a n = Memory.load m' b n) (hi : i < n) : Memory.read m (a + i) = Memory.read m' (b + i) := by
  induction n generalizing a b i with
  | zero => exact absurd hi (Nat.not_lt_zero i)
  | succ n ih =>
    rw [Memory.load, Memory.load] at h
    have hfirst := (Memory.read m a).isLt
    have hfirst' := (Memory.read m' b).isLt
    cases i with
    | zero => exact BitVec.eq_of_toNat_eq (by simp only [Nat.add_zero]; omega)
    | succ i =>
      have hnext (x : Nat) : x + (i + 1) = x + 1 + i := by omega
      rw [hnext, hnext]
      exact ih (by omega) (Nat.lt_of_succ_lt_succ hi)

/-- Every byte of a buffer is a byte of one of its samples. -/
theorem exists_sample_of_lt {fmt : Format} {frames channels i : Nat} (hi : i < frames * channels * fmt.bytes) :
    ∃ f c k, f < frames ∧ c < channels ∧ k < fmt.bytes ∧ i = sampleOffset fmt channels f c + k := by
  have hindex : i / fmt.bytes < frames * channels := Nat.div_lt_of_lt_mul (by rwa [Nat.mul_comm])
  have hchannels : 0 < channels := Nat.pos_of_mul_pos_left (Nat.zero_lt_of_lt hindex)
  refine ⟨i / fmt.bytes / channels, i / fmt.bytes % channels, i % fmt.bytes,
    Nat.div_lt_of_lt_mul (by rwa [Nat.mul_comm]), Nat.mod_lt _ hchannels, Nat.mod_lt _ (bytes_pos fmt), ?_⟩
  rw [sampleOffset, Nat.div_add_mod', Nat.div_add_mod']

/-- Buffers whose samples are the same numbers hold the same bytes. -/
theorem Memory.buffer_congr {m m' : List Host.Cell} {a b : Nat} {fmt : Format} {frames channels : Nat}
    (h : ∀ f c, f < frames → c < channels →
      Memory.load m (a + sampleOffset fmt channels f c) fmt.bytes =
        Memory.load m' (b + sampleOffset fmt channels f c) fmt.bytes)
    {i : Nat} (hi : i < frames * channels * fmt.bytes) : Memory.read m (a + i) = Memory.read m' (b + i) := by
  obtain ⟨f, c, k, hf, hc, hk, rfl⟩ := exists_sample_of_lt hi
  rw [← Nat.add_assoc, ← Nat.add_assoc]
  exact Memory.read_eq_of_load_eq (h f c hf hc) hk

/-- The samples of two states with the same input buffer in two memories. -/
theorem inputSample_congr {s s' : State} {fmt : Format} (hinput : s'.input = s.input)
    (hchannels : s'.actChannels = s.actChannels)
    (h : ∀ i, i < s.input.frames.toNat * s.actChannels.toNat * fmt.bytes →
      Memory.read s'.mem (s.input.addr.toNat + i) = Memory.read s.mem (s.input.addr.toNat + i))
    {f c : Nat} (hf : f < s.input.frames.toNat) (hc : c < s.actChannels.toNat) :
    s'.inputSample fmt f c = s.inputSample fmt f c := by
  have hend := sampleOffset_end_le fmt hf hc
  rw [sampleOffset] at hend
  rw [State.inputSample, State.inputSample, hinput, hchannels]
  congr 1
  refine Memory.load_congr _ _ fun j hlow hhigh => ?_
  obtain ⟨i, rfl⟩ := Nat.exists_eq_add_of_le (Nat.le_of_add_right_le hlow)
  exact h i (by omega)

/-- Two histories of as many slots are the same when every slot is. -/
theorem hist_eq_of_slots {s t : State} (hmax : s.maxChannels = t.maxChannels) (h : ∀ c, s.slot c = t.slot c) :
    s.hist = t.hist := by
  refine List.ext_getElem hmax fun c hs ht => ?_
  have hslot := h c
  rwa [State.slot, State.slot, List.getD_eq_getElem _ _ hs, List.getD_eq_getElem _ _ ht] at hslot

/-! ## The obligation -/

/-- The state with the output buffer elsewhere and another sample memory. -/
def State.withOutput (s : State) (outAddr : Word) (m : List Host.Cell) : State :=
  { s with output := { s.output with addr := outAddr }, mem := m }

/-- Settles O39: both runs are the streams of their channels, over the same samples.  That the buffers are the same, or
disjoint, is what both runs have checked already. -/
theorem inPlaceEqualsSeparateBuffers : Obligations.InPlaceEqualsSeparateBuffers := by
  unfold Obligations.InPlaceEqualsSeparateBuffers
  intro s outAddr m t u hfilter hwf hwfm _ hagree _ ht htresult hu huresult
  have hchecks := noneFails_of_execProcess ht htresult
  have hchecks' := noneFails_of_execProcess hu huresult
  obtain ⟨fmt, hfmt⟩ := exists_format_of_filterInv hfilter (Bool.eq_true_of_not_eq_false hchecks.1)
  rw [s.nbytes_of_format hfmt] at hagree ⊢
  obtain ⟨t', ht', -, htmax, htout, htkept, htrest, -⟩ :=
    processRunsEveryChannelsStream s fmt hfilter hwf hchecks hfmt
  obtain ⟨u', hu', -, humax, huout, hukept, hurest, -⟩ :=
    processRunsEveryChannelsStream (s.withOutput outAddr m) fmt hfilter hwfm hchecks' hfmt
  obtain rfl := Host.Outcome.next.inj (ht'.symm.trans ht)
  obtain rfl := Host.Outcome.next.inj (hu'.symm.trans hu)
  have hsamples (f c : Nat) (hf : f < s.input.frames.toNat) (hc : c < s.actChannels.toNat) :
      (s.withOutput outAddr m).inputSample fmt f c = s.inputSample fmt f c :=
    inputSample_congr (s := s) (s' := s.withOutput outAddr m) rfl rfl hagree hf hc
  refine ⟨hist_eq_of_slots (humax.trans htmax.symm) fun c => ?history, fun i hi => Memory.buffer_congr ?output hi⟩
  case history =>
    rcases Nat.lt_or_ge c s.actChannels.toNat with hc | hc
    · rw [hukept c hc, htkept c hc]
      exact channelHistory_congr rfl rfl fun f hf => hsamples f c hf hc
    · exact (hurest c hc).trans (htrest c hc).symm
  case output =>
    intro f c hf hc
    have houtput : (s.withOutput outAddr m).channelOutput fmt c f = s.channelOutput fmt c f :=
      channelOutput_congr rfl rfl fun g hg => hsamples g c (Nat.lt_of_le_of_lt hg hf) hc
    exact (huout f c hf hc).trans ((congrArg (encodeSample · fmt) houtput).trans (htout f c hf hc).symm)

end Sys2Proof.Machine
end

section
/-! PROOFS. Failures (60 R134, R136): a failed command changes `CMD` and `RESULT` only, and every command reports the first
of its checks that fails. -/

namespace Sys2Proof.Machine

/-! ## What a failure leaves (60 R134) -/

theorem Cause.code_cases (k : Cause) : k.code = 1 ∨ k.code = 2 := by cases k <;> decide

@[simp] theorem resultCode_failureResult (k : Cause) : resultCode (failureResult k) = k.code := by cases k <;> rfl

/-- A word written to `CMD` fails with a cause, or runs a command that succeeds. -/
theorem State.execute_fails_or_succeeds (s : State) (w : Word) :
    (∃ k, s.execute w = (s.setCmd w).fail k) ∨ ∃ u : State, s.execute w = u.succeed := by
  rcases s.execute_cases w with ⟨e, -, he⟩ | ⟨c, -, hc⟩
  · exact .inl ⟨_, he⟩
  · rw [hc]
    exact (s.issue_cases w (commandBody c)).imp (fun ⟨k, _, hk⟩ => ⟨k, hk⟩) fun ⟨u, _, hu⟩ => ⟨u, hu⟩

/-- Settles O17: a success leaves code 0, and a failure is `State.fail` of the state with the word in `CMD`. -/
theorem failedCommandChangesOnlyCmdAndResult : Obligations.FailedCommandChangesOnlyCmdAndResult := by
  unfold Obligations.FailedCommandChangesOnlyCmdAndResult
  intro w s t ht hcode
  obtain rfl := Host.Outcome.next.inj ((execWr_cmd w s).symm.trans ht)
  rcases s.execute_fails_or_succeeds w with ⟨k, hk⟩ | ⟨u, hu⟩
  · rw [hk]
    exact ⟨(resultCode_failureResult k).symm ▸ k.code_cases, rfl⟩
  · rw [hu] at hcode
    exact (hcode rfl).elim

/-! ## The checks of every command in order (60 R136) -/

theorem psampleCommand_reportsFirst (s : State) :
    ∃ u, ReportsFirst (s.checksOf .psample) (psampleCommand s) u :=
  ⟨_, .cons psampleCommand_notReady fun hready =>
    have hr := Bool.eq_true_of_not_eq_false hready
    .cons (psampleCommand_badChannelIndex hr) fun hc => .nil (psampleCommand_ready hr (not_not.1 hc))⟩

theorem clearCommand_reportsFirst (s : State) : ReportsFirst (s.checksOf .clear) (clearCommand s) s.clearHistory :=
  .cons clearCommand_notReady fun hready => .nil (clearCommand_ready (Bool.eq_true_of_not_eq_false hready))

/-- With a legal filter the active format is one of the five, so that PROCESS has no check beside those of its list. -/
theorem processCommand_reportsFirst {s : State} (hfilter : s.filterInv = true) :
    ∃ u, ReportsFirst s.processCheckList (processCommand s) u := by
  cases hr : s.ready with
  | false =>
    exact ⟨s, .cons (fun _ => processCommand_notReady hr) fun hready => (hready hr).elim⟩
  | true =>
    obtain ⟨fmt, hfmt⟩ := exists_format_of_filterInv hfilter hr
    rw [processCommand_eq_map]
    exact ⟨_, (processChecks_reportsFirst hfmt).map (processLoop · s)⟩

/-- A command's body has the checks of 60 R136, in their order, and no other. -/
theorem commandBody_reportsFirst (c : Command) {s : State} (hfilter : s.filterInv = true) :
    ∃ u, ReportsFirst (s.checksOf c) (commandBody c s) u := by
  cases c with
  | new => exact ⟨_, newCommand_reportsFirst s⟩
  | reinit =>
    exact ⟨_, .cons reinitCommand_notReady fun hready =>
      reinitCommand_reportsFirst (Bool.eq_true_of_not_eq_false hready)⟩
  | process => exact processCommand_reportsFirst hfilter
  | psample => exact psampleCommand_reportsFirst s
  | clear => exact ⟨_, clearCommand_reportsFirst s⟩
  | latency => exact ⟨_, .nil rfl⟩
  | design => exact ⟨_, designCommand_reportsFirst s⟩

/-- No check reads `CMD`. -/
theorem State.setCmd_checksOf (s : State) (w : Word) (c : Command) : (s.setCmd w).checksOf c = s.checksOf c := by
  cases c <;> rfl

theorem commandBody_cmd {c : Command} {s u : State} (h : commandBody c s = .ok u) : u.cmd = s.cmd := by
  cases commandBody_writes h <;> rfl

/-- Settles O19: a word of no command by its decoding, a command by the checks of its body. -/
theorem firstFailingCheckIsReported : Obligations.FirstFailingCheckIsReported := by
  unfold Obligations.FirstFailingCheckIsReported
  refine ⟨fun w s hw => ?reserved, fun w s hw => ?noOpcode, fun s c => exec_wr_encodeCommand c s,
    fun s c hfilter => ?checks⟩
  case reserved => exact exec_wr_cmd_of_error s (decodeCommand_of_reserved (by omega))
  case noOpcode => exact exec_wr_cmd_of_error s (decodeCommand_of_noOpcode (by omega) (by omega))
  case checks =>
    obtain ⟨u, hfails, hpasses⟩ := commandBody_reportsFirst c (s := s.setCmd (encodeCommand c)) hfilter
    rw [State.setCmd_checksOf] at hfails hpasses
    exact ⟨fun k hk => exec_of_error (hfails k hk),
      fun hnone => ⟨_, exec_of_ok (hpasses hnone), commandBody_cmd (hpasses hnone), rfl⟩⟩

end Sys2Proof.Machine
end

section
/-! PROOFS. The statements of 70_reset_and_hazards: what every command does straight after reset (70 R152). -/

namespace Sys2Proof.Machine

/-! ## Commands straight after reset -/

@[simp] theorem State.resetEvent_ready (s : State) : s.resetEvent.ready = false := by
  simp [State.ready, State.resetEvent, State.afterReset]

/-- A command whose first check is for a filter fails with cause 1 straight after reset. -/
theorem exec_resetEvent_of_needsFilter {c : Command}
    (h : ∀ s : State, s.ready = false → commandBody c s = .error .notReady) (s : State) :
    exec c.toInstr s.resetEvent = .next { s.resetEvent with cmd := encodeCommand c, result := 0x0101 } :=
  exec_of_error (h (s.resetEvent.setCmd (encodeCommand c)) s.resetEvent_ready)

/-- The format tag is 0 after reset, which is no format: the first check of NEW fails. -/
theorem firstFailing_newChecks_resetEvent (s : State) : FirstFailing s.resetEvent.newChecks .badFormat :=
  .inl ⟨fun ⟨hlow, _⟩ => Nat.not_succ_le_zero 0 hlow, rfl⟩

/-- Settles O22: no filter, and format tag 0, are what the first checks find; LATENCY and DESIGN need neither. -/
theorem commandsStraightAfterReset : Obligations.CommandsStraightAfterReset := by
  unfold Obligations.CommandsStraightAfterReset
  refine fun s => ⟨latencyReportsOne s.resetEvent,
    exec_resetEvent_of_needsFilter (c := .reinit) (fun _ => reinitCommand_notReady) s,
    exec_resetEvent_of_needsFilter (c := .process) (fun _ => processCommand_notReady) s,
    exec_resetEvent_of_needsFilter (c := .psample) (fun _ => psampleCommand_notReady) s,
    exec_resetEvent_of_needsFilter (c := .clear) (fun _ => clearCommand_notReady) s,
    ?new, fun k hvalid => ?design⟩
  case new => exact (newConstructsTheFilter s.resetEvent).2 .badFormat (firstFailing_newChecks_resetEvent s)
  case design =>
    exact ⟨_, (designWritesDesignerOutputsOnly (s.resetEvent.setCfg k)).1 hvalid, rfl, s.resetEvent_ready⟩

end Sys2Proof.Machine
end

section
/-! PROOFS. The host's actions as steps: the reset event, and the model's own form (log 1, 7) that every step keeps, which
is the canonical memory list, the parameters and the number of history slots. -/

namespace Sys2Proof.Machine

/-! ## The reset event (70 R150) -/

theorem step_of_reset {s : State} {rest : List HostAction} (h : s.script = .reset :: rest) :
    step s = .next (s.setScript rest).resetEvent := by
  simp [step, h]

/-- Settles O6: the step leaves `afterReset`, where every number and slot reads 0 and the rules of 10_state R28 hold. -/
theorem resetEventZeroesEveryRegister : Obligations.ResetEventZeroesEveryRegister := by
  unfold Obligations.ResetEventZeroesEveryRegister
  intro s rest hs
  have hinv : (s.setScript rest).resetEvent.registersInv = true :=
    (State.registersInv_iff _).2 (.afterReset _ _ _ _ _)
  exact ⟨_, step_of_reset hs, State.afterReset_readNumber _ _ _ _ _, State.afterReset_slot _ _ _ _ _, rfl, rfl,
    State.resetEvent_maxChannels _, hinv, rfl⟩

/-! ## The form of the state (log 1, 7) -/

/-- From `s` to `t` the memory list stays canonical, and the parameters and the number of history slots stay the same. -/
structure FormKept (s t : State) : Prop where
  wf : Memory.wf s.mem = true → Memory.wf t.mem = true
  params : t.params = s.params
  slots : t.maxChannels = s.maxChannels

namespace FormKept

variable {s t : State}

theorem refl (s : State) : FormKept s s := ⟨id, rfl, rfl⟩

/-- The host writes neither the history nor the sample memory through a register. -/
theorem writeReg (s : State) (r : Reg) (v : Word) : FormKept s (s.writeReg r v) := by
  obtain ⟨hparams, -, -⟩ := s.writeReg_hostSide r v
  have hkept := ReadOnlyKept.writeReg s r v
  exact ⟨fun hwf => hkept.mem ▸ hwf, hparams, congrArg List.length hkept.hist⟩

/-- PROCESS stores its samples with `Memory.store`, which keeps the list canonical. -/
theorem processLoop (fmt : Format) (s : State) : FormKept s (processLoop fmt s) := by
  obtain ⟨⟨hist, mem, hframe⟩, hslots⟩ := processLoop_frame fmt s
  exact ⟨fun hwf => (ProcessLeaves.processLoop fmt hwf).wf, by rw [hframe], hslots⟩

/-- PROCESS alone writes sample memory; the others that write the history zero slots of it or replace one. -/
theorem commandBody {c : Command} (h : commandBody c s = .ok t) : FormKept s t := by
  cases c with
  | new =>
    obtain ⟨k, -, rfl⟩ := newCommand_ok h
    exact ⟨id, rfl, zeroSlotsFrom_length _ s.hist⟩
  | reinit =>
    obtain ⟨-, k, -, rfl⟩ := reinitCommand_ok h
    exact ⟨id, rfl, zeroSlotsFrom_length _ s.hist⟩
  | process =>
    obtain ⟨fmt, -, rfl⟩ := processCommand_ok h
    exact processLoop fmt s
  | psample =>
    obtain ⟨-, -, rfl⟩ := psampleCommand_ok h
    exact ⟨id, rfl, State.setSlot_maxChannels s _ _⟩
  | clear =>
    obtain ⟨-, rfl⟩ := clearCommand_ok h
    exact ⟨id, rfl, zeroSlotsFrom_length _ s.hist⟩
  | latency =>
    obtain rfl := latencyCommand_ok h
    exact { refl s with }
  | design =>
    obtain ⟨k, -, rfl⟩ := designCommand_ok h
    exact { refl s with }

theorem exec {i : Instr} (h : exec i s = .next t) : FormKept s t := by
  rcases exec_cases i s with hi | ⟨r, v, -, -, hi⟩ | ⟨v, hi⟩ | ⟨w, c, hi⟩ | ⟨w, c, u, hu, hi⟩ <;>
    obtain rfl := Host.Outcome.next.inj (hi.symm.trans h)
  · exact refl s
  · exact writeReg s r v
  · exact { refl s with }
  · exact { refl s with }
  · exact { commandBody hu with }

theorem hostStore {a : Nat} {b : Byte} (h : hostStore a b s = .next t) : FormKept s t := by
  unfold Machine.hostStore at h
  split at h
  · obtain rfl := Host.Outcome.next.inj h
    exact ⟨Memory.wf_write a b, rfl, rfl⟩
  · cases h

theorem resetEvent (s : State) : FormKept s s.resetEvent := ⟨id, rfl, s.resetEvent_maxChannels⟩

/-- Taking an action from the script leaves the form alone, and so does each of the actions. -/
theorem step (h : step s = .next t) : FormKept s t := by
  rcases step_cases s with ⟨-, hs⟩ | ⟨tr, rest, -, hs⟩ | ⟨a, b, rest, -, hs⟩ | ⟨rest, -, hs⟩ <;> rw [hs] at h
  · exact Host.Outcome.next.inj h ▸ refl s
  · exact { exec h with }
  · exact { hostStore h with }
  · exact Host.Outcome.next.inj h ▸ { resetEvent (s.setScript rest) with }

end FormKept

/-- Settles O10: no byte is listed after reset, and each of a step's ways to go on keeps the form. -/
theorem everyStepKeepsMemoryFormAndParameters : Obligations.EveryStepKeepsMemoryFormAndParameters := by
  unfold Obligations.EveryStepKeepsMemoryFormAndParameters
  refine ⟨rfl, fun s t h => ?_⟩
  obtain ⟨hwf, hparams, hslots⟩ := FormKept.step h
  exact ⟨hwf, hparams, hslots⟩

end Sys2Proof.Machine
end
